-- ==== Sys2Proof/Word.lean ====
section
/-! DEFINITION. The two bit widths of the block (R8, R9 of spec/00_scope.md). All values are unsigned. -/

namespace Sys2Proof

/-- A byte: bit 7 is the most significant (R9). -/
abbrev Byte := BitVec 8

/-- A 16-bit quantity: `declared_length` and `received_length` (R8; D18 fixes the second width). -/
abbrev Half := BitVec 16

end Sys2Proof
end

