-- ==== Sys2Proof/Machine/Crc8.lean ====
section
/-! DEFINITION. The pure CRC-8 operations of spec/40_crc8.md (R71 to R73, R81). -/

namespace Sys2Proof.Machine

/-- `POLY`, the low eight coefficients of the polynomial (R7, R82). -/
def crcPoly : Byte := 0x07#8

/-- `CRC_INIT`, the default seed (R7). -/
def crcInit : Byte := 0x00#8

/-- `CRC8.STEP(c)` (R71): the bit shifted out of position 7 is lost. -/
def crcStep (c : Byte) : Byte :=
  if c.getLsbD 7 then (c <<< 1) ^^^ crcPoly else c <<< 1

/-- `CRC8.STEP` repeated `n` times, the loop of R72. -/
def crcSteps : Nat → Byte → Byte
  | 0, t => t
  | n + 1, t => crcSteps n (crcStep t)

/-- `CRC8.UPDATE(c, b)` (R72): the exclusive-or first, then exactly eight steps. -/
def crcUpdate (c b : Byte) : Byte := crcSteps 8 (c ^^^ b)

/-- `CRC8.CALC(data, seed)` (R73): the bytes are folded in increasing index order. Total (R81). -/
def crcCalc (data : List Byte) (seed : Byte) : Byte := data.foldl crcUpdate seed

/-- `Crc8(data)`: the calculation with the default seed (R73). -/
def crc8 (data : List Byte) : Byte := crcCalc data crcInit

end Sys2Proof.Machine
end

