-- ==== Sys2Proof/Config.lean ====
section
/-! DEFINITION. The build-time parameters `C` and `MAX_LEN` (R7 of spec/00_scope.md, D2 of spec/92_eei_decisions.md).
The spec leaves both OPEN ("proofs quantify over it"), so they are a record that the state carries and no step
changes; log entry 1. The spec leaves no result value undefined, so this file holds no free value. -/

namespace Sys2Proof

/-- The parameters that are fixed when the block is built (R7, R35, R149). -/
structure Config where
  /-- `C`: how many bytes the payload buffer holds. -/
  capacity : Nat
  /-- `MAX_LEN`: the largest declared length the framer accepts. -/
  maxLen : Nat
  deriving DecidableEq, Repr

/-- R7's constraint: `0 <= MAX_LEN <= C` and `MAX_LEN <= 65535`. -/
abbrev Config.ok (c : Config) : Prop := c.maxLen ≤ c.capacity ∧ c.maxLen ≤ 65535

/-- `OVERHEAD`: the count of frame bytes that are not payload (R7). -/
def overhead : Nat := 7

/-- The defaults of R7: `C = 64`, `MAX_LEN = C - 7 = 57`. -/
def Config.standard : Config := { capacity := 64, maxLen := 64 - overhead }

end Sys2Proof
end

