-- ==== Sys2Proof/Syntax.lean ====
section
/-! DEFINITION. The whole syntax of the block: the names it uses (positions, kinds, drop causes), its "instructions"
(one constructor per row of spec/opcode_table.json), and the inputs that arrive at its boundary. -/

namespace Sys2Proof

/-- The eight values of the register `state`, in the source's order (R15). -/
inductive Position where
  | waitSync | getLengthLow | getLengthHigh | getHeaderCrc | waitDataSync | getData | getFooterCrc | getStopByte
  deriving DecidableEq, Repr

/-- The four values of the register `kind` when it holds one (R24, R62). -/
inductive Kind where
  | request | stream | response | error
  deriving DecidableEq, Repr

/-- The five causes of a drop (R126). -/
inductive DropCause where
  | frameTooLarge | headerCrcMismatch | dataSyncMismatch | dataCrcMismatch | stopByteMismatch
  deriving DecidableEq, Repr

/-- One constructor per row of spec/opcode_table.json. A framer class carries the input byte unless its byte test fixes
the byte; the class's condition on registers is the decoder's (R64), not an operand. -/
inductive Instr where
  /-- `WS.SYNC` (R84): the byte `0xFA` in `WaitSync`. -/
  | wsSync
  /-- `WS.SKIP` (R83): any other byte in `WaitSync`. -/
  | wsSkip (b : Byte)
  /-- `LL.STORE` (R85). -/
  | llStore (b : Byte)
  /-- `LH.OK` (R86). -/
  | lhOk (b : Byte)
  /-- `LH.TOOLARGE` (R87). -/
  | lhTooLarge (b : Byte)
  /-- `HC.OK` (R88). -/
  | hcOk (b : Byte)
  /-- `HC.BAD` (R89). -/
  | hcBad (b : Byte)
  /-- `DS.OK` (R90): the byte `0xFB` with a non-empty payload declared. -/
  | dsOk
  /-- `DS.EMPTY` (R91): the byte `0xFB` with an empty payload declared. -/
  | dsEmpty
  /-- `DS.BAD` (R92). -/
  | dsBad (b : Byte)
  /-- `GD.MORE` (R98). -/
  | gdMore (b : Byte)
  /-- `GD.LAST` (R98). -/
  | gdLast (b : Byte)
  /-- `FC.OK` (R103). -/
  | fcOk (b : Byte)
  /-- `FC.BAD` (R104). -/
  | fcBad (b : Byte)
  /-- `SB.OK` (R107): the byte `0xFE` in `GetStopByte`. -/
  | sbOk
  /-- `SB.BAD` (R110). -/
  | sbBad (b : Byte)
  /-- `CRC8.STEP(c)` (R71). -/
  | crcStep (c : Byte)
  /-- `CRC8.UPDATE(c, b)` (R72). -/
  | crcUpdate (c b : Byte)
  /-- `CRC8.CALC(data, seed)` (R73). The operand is a list, which knows its own length (R81). -/
  | crcCalc (data : List Byte) (seed : Byte)
  /-- `CRC8.CLR` (R77). -/
  | crcClr
  /-- `CRC8.LOAD(s)` (R78). -/
  | crcLoad (v : Byte)
  /-- `CRC8.UPD(b)` (R79). -/
  | crcUpd (b : Byte)
  /-- `CRC8.READ` (R80). -/
  | crcRead
  /-- `KIND.REQUEST` (R105): `payload[0]` is `0x0B`. -/
  | kindRequest
  /-- `KIND.STREAM` (R105): `payload[0]` is `0x0C`. -/
  | kindStream
  /-- `KIND.RESPONSE` (R105): `payload[0]` is `0x16`. -/
  | kindResponse
  /-- `KIND.ERROR` (R105): `payload[0]` is `0x21`. -/
  | kindError
  /-- `KIND.NONE` (R105, R63): `payload[0]` is `v`, one of the 252 reserved codes. -/
  | kindNone (v : Byte)
  /-- `RESET` (R147): the reset event. -/
  | reset
  /-- `FRAME(p)` (R68, R114): stands for the bytes of the frame that carries `p`. -/
  | frame (p : List Byte)
  /-- `HDR(n)` (R68): stands for the five header bytes of a frame that declares `n`. -/
  | hdr (n : Half)
  deriving DecidableEq, Repr

/-- What the one input stream can present to the block (R28, R153; R67 for the operations invoked by name).
The last two are the presentations that the spec gives no meaning (R158, R161; U3, U4, U10). -/
inductive Input where
  /-- `process_byte(b)`: the driver presents one byte. -/
  | byte (b : Byte)
  /-- The `Reset` event. -/
  | reset
  /-- `CRC8.STEP` invoked by name. -/
  | crcStep (c : Byte)
  /-- `CRC8.UPDATE` invoked by name. -/
  | crcUpdate (c b : Byte)
  /-- `CRC8.CALC` invoked by name. -/
  | crcCalc (data : List Byte) (seed : Byte)
  /-- `CRC8.CLR` invoked by name. -/
  | crcClr
  /-- `CRC8.LOAD` invoked by name. -/
  | crcLoad (v : Byte)
  /-- `CRC8.UPD` invoked by name. -/
  | crcUpd (b : Byte)
  /-- `CRC8.READ` invoked by name. -/
  | crcRead
  /-- The rows of format `payload-byte0`, tried on the byte that `payload[0]` holds, whatever the state (R64);
  log entry 6. -/
  | kindDecode
  /-- The notation `FRAME(p)` in a stream (R68). -/
  | frame (p : List Byte)
  /-- The notation `HDR(n)` in a stream (R68). -/
  | hdr (n : Half)
  /-- A byte presented while a step, or the sink inside it, is executing (R154, R158). -/
  | byteInStep (b : Byte)
  /-- A `Reset` presented while a step, or the sink inside it, is executing (R158, R161). -/
  | resetInStep
  deriving DecidableEq, Repr

end Sys2Proof
end

