-- ==== Sys2Proof/Machine/Operands.lean ====
section
/-! DEFINITION. The operand forms of the block: the marker bytes, the number codes, the length field, the computed
header checksum, the decode of `kind`, and the bytes a frame consists of. -/

namespace Sys2Proof.Machine

/-- `SYNC`, the frame start marker (R7, R52). -/
def syncByte : Byte := 0xFA#8

/-- `DSYNC`, the data start marker (R7, R55). -/
def dsyncByte : Byte := 0xFB#8

/-- `STOP`, the stop byte (R7, R58). -/
def stopByte : Byte := 0xFE#8

/-- The numbers R16 gives the eight states. -/
def positionCode : Position → BitVec 3
  | .waitSync => 0
  | .getLengthLow => 1
  | .getLengthHigh => 2
  | .getHeaderCrc => 3
  | .waitDataSync => 4
  | .getData => 5
  | .getFooterCrc => 6
  | .getStopByte => 7

/-- The numbers R126 gives the five causes; 0 is left for "no drop" (D8). -/
def dropCode : DropCause → BitVec 3
  | .frameTooLarge => 1
  | .headerCrcMismatch => 2
  | .dataSyncMismatch => 3
  | .dataCrcMismatch => 4
  | .stopByteMismatch => 5

/-- The kind codes of R62. -/
def kindCode : Kind → Byte
  | .request => 0x0B#8
  | .stream => 0x0C#8
  | .response => 0x16#8
  | .error => 0x21#8

/-- `DecodeKind(v)` (R105); the other 252 codes give no kind (R63). -/
def decodeKind (v : Byte) : Option Kind :=
  if v = kindCode .request then some .request
  else if v = kindCode .stream then some .stream
  else if v = kindCode .response then some .response
  else if v = kindCode .error then some .error
  else none

/-- `n[7:0]` of a 16-bit length. -/
def lowByte (n : Half) : Byte := n.extractLsb' 0 8

/-- `n[15:8]` of a 16-bit length. -/
def highByte (n : Half) : Byte := n.extractLsb' 8 8

/-- The length as it stands after the low byte: `zext_16(b)` (R85). -/
def lengthFromLow (b : Byte) : Half := b.zeroExtend 16

/-- `L = (zext_16(b) << 8) | declared_length[7:0]` (R39, R53, R86). -/
def assembleLength (b : Byte) (declared : Half) : Half :=
  (b.zeroExtend 16 <<< 8) ||| (lowByte declared).zeroExtend 16

/-- `H = Crc8([0xFA, len_lo, len_hi])`, a pure function of the declared length (R94). -/
def headerCrcOf (declared : Half) : Byte := crc8 [syncByte, lowByte declared, highByte declared]

/-- The five header bytes of a frame that declares `n`: the expansion of `HDR(n)` (R68). -/
def headerBytes (n : Half) : List Byte :=
  [syncByte, lowByte n, highByte n, headerCrcOf n, dsyncByte]

/-- `FrameEncode(p)` (R114). The spec defines it for `len(p) <= MAX_LEN` only; its users check that bound. -/
def frameEncode (p : List Byte) : List Byte :=
  headerBytes (BitVec.ofNat 16 p.length) ++ p ++ [crc8 p, stopByte]

/-- `WellFormed(f)`, the predicate form of a frame (R122), clause by clause. -/
def wellFormedFrame (cfg : Config) (f : List Byte) : Bool :=
  match f with
  | f0 :: f1 :: f2 :: f3 :: f4 :: rest =>
    let n := assembleLength f2 (lengthFromLow f1)
    f0 == syncByte && decide (n.toNat ≤ cfg.maxLen) && decide (f.length = n.toNat + overhead)
      && f3 == crc8 [f0, f1, f2] && f4 == dsyncByte
      && rest[n.toNat]? == some (crc8 (rest.take n.toNat)) && rest[n.toNat + 1]? == some stopByte
  | _ => false

end Sys2Proof.Machine
end

