-- ==== Sys2Proof/WellFormed.lean ====
section
/-! DEFINITION. Which terms of `Instr` are instructions: the checks on operands that the byte tests of
spec/opcode_table.json and its operand ranges make, apart from the conditions on registers, which the decoder makes
(`Sys2Proof.Machine.selectedIn`). -/

namespace Sys2Proof

open Machine

/-- The operand checks of an instruction under the parameters `cfg`: an "any other" row's byte is not the literal of the
rows before it (R64), a reserved kind code is none of the four codes (R63), and the operand of `FRAME` is within
`MAX_LEN` (R114, R115). -/
def wellFormed (cfg : Config) : Instr → Bool
  | .wsSync => true
  | .wsSkip b => b != syncByte
  | .llStore _ => true
  | .lhOk _ => true
  | .lhTooLarge _ => true
  | .hcOk _ => true
  | .hcBad _ => true
  | .dsOk => true
  | .dsEmpty => true
  | .dsBad b => b != dsyncByte
  | .gdMore _ => true
  | .gdLast _ => true
  | .fcOk _ => true
  | .fcBad _ => true
  | .sbOk => true
  | .sbBad b => b != stopByte
  | .crcStep _ => true
  | .crcUpdate _ _ => true
  | .crcCalc _ _ => true
  | .crcClr => true
  | .crcLoad _ => true
  | .crcUpd _ => true
  | .crcRead => true
  | .kindRequest => true
  | .kindStream => true
  | .kindResponse => true
  | .kindError => true
  | .kindNone v => decide (decodeKind v = none)
  | .reset => true
  | .frame p => decide (p.length ≤ cfg.maxLen)
  | .hdr _ => true

end Sys2Proof
end

