-- ==== Sys2Proof/Decode.lean ====
section
/-! DEFINITION. Decoding and encoding (spec/30_encoding.md). What is decoded is one input under the registers that the
class conditions of R64 read; the decoder is total and rejects by name. After it stand the encoder, the class table of R64
as rows of data, and the reading of a bare table word. -/

namespace Sys2Proof

open Machine

/-- What the class conditions of R64 read besides the byte. `payload0` is `payload[0]`, absent while there is none. -/
structure Ctx where
  cfg : Config
  position : Position
  declaredLength : Half
  receivedLength : Half
  runCrc : Byte
  payload0 : Option Byte
  deriving DecidableEq, Repr

/-- Why an input stands for no instruction. -/
inductive Reject where
  /-- A kind decode while `payload[0]` does not exist (R36: `MemRead` is defined only below `received_length`). -/
  | noPayloadByte
  /-- A byte presented while a step is executing: the spec gives it no meaning (R154, R158). -/
  | byteInStep
  /-- A `Reset` presented while a step is executing: the spec gives it no meaning (R158, R161). -/
  | resetInStep
  /-- `FRAME(p)` with `len(p) > MAX_LEN`, where `FrameEncode` is not defined (R115). -/
  | frameTooLong
  deriving DecidableEq, Repr

/-- The condition of `LH.OK`: the assembled length is at most `MAX_LEN` (R86). -/
def lengthFits (c : Ctx) (b : Byte) : Bool :=
  decide ((assembleLength b c.declaredLength).toNat ≤ c.cfg.maxLen)

/-- The condition of `HC.OK`: the byte is the computed header checksum (R88). -/
def headerMatches (c : Ctx) (b : Byte) : Bool := b == headerCrcOf c.declaredLength

/-- The condition of `GD.MORE`: the byte is not the last of the payload (R98). -/
def moreToCome (c : Ctx) : Bool := decide (c.receivedLength.toNat + 1 < c.declaredLength.toNat)

/-- The class of an input byte (R64, assembled as in R93 and R112). Total: every byte in every state has one class. -/
def decodeByte (c : Ctx) (b : Byte) : Instr :=
  match c.position with
  | .waitSync => if b = syncByte then .wsSync else .wsSkip b
  | .getLengthLow => .llStore b
  | .getLengthHigh => if lengthFits c b then .lhOk b else .lhTooLarge b
  | .getHeaderCrc => if headerMatches c b then .hcOk b else .hcBad b
  | .waitDataSync =>
    if b = dsyncByte then (if c.declaredLength = 0 then .dsEmpty else .dsOk) else .dsBad b
  | .getData => if moreToCome c then .gdMore b else .gdLast b
  | .getFooterCrc => if b = c.runCrc then .fcOk b else .fcBad b
  | .getStopByte => if b = stopByte then .sbOk else .sbBad b

/-- The row of format `payload-byte0` that a first payload byte selects (R62, R105). -/
def decodeKindRow (v : Byte) : Instr :=
  match decodeKind v with
  | some .request => .kindRequest
  | some .stream => .kindStream
  | some .response => .kindResponse
  | some .error => .kindError
  | none => .kindNone v

/-- Decoding one input: the instruction it stands for, or why it stands for none. -/
def decode (c : Ctx) : Input → Except Reject Instr
  | .byte b => .ok (decodeByte c b)
  | .reset => .ok .reset
  | .crcStep x => .ok (.crcStep x)
  | .crcUpdate x b => .ok (.crcUpdate x b)
  | .crcCalc data seed => .ok (.crcCalc data seed)
  | .crcClr => .ok .crcClr
  | .crcLoad v => .ok (.crcLoad v)
  | .crcUpd b => .ok (.crcUpd b)
  | .crcRead => .ok .crcRead
  | .kindDecode =>
    match c.payload0 with
    | some v => .ok (decodeKindRow v)
    | none => .error .noPayloadByte
  | .frame p => if p.length ≤ c.cfg.maxLen then .ok (.frame p) else .error .frameTooLong
  | .hdr n => .ok (.hdr n)
  | .byteInStep _ => .error .byteInStep
  | .resetInStep => .error .resetInStep

/-- The encoder: the input that presents an instruction. A framer class is presented by its byte, a kind row by the kind
decode of `payload[0]`, everything else by its name (R67, R68). -/
def encode : Instr → Input
  | .wsSync => .byte syncByte
  | .wsSkip b => .byte b
  | .llStore b => .byte b
  | .lhOk b => .byte b
  | .lhTooLarge b => .byte b
  | .hcOk b => .byte b
  | .hcBad b => .byte b
  | .dsOk => .byte dsyncByte
  | .dsEmpty => .byte dsyncByte
  | .dsBad b => .byte b
  | .gdMore b => .byte b
  | .gdLast b => .byte b
  | .fcOk b => .byte b
  | .fcBad b => .byte b
  | .sbOk => .byte stopByte
  | .sbBad b => .byte b
  | .crcStep c => .crcStep c
  | .crcUpdate c b => .crcUpdate c b
  | .crcCalc data seed => .crcCalc data seed
  | .crcClr => .crcClr
  | .crcLoad v => .crcLoad v
  | .crcUpd b => .crcUpd b
  | .crcRead => .crcRead
  | .kindRequest => .kindDecode
  | .kindStream => .kindDecode
  | .kindResponse => .kindDecode
  | .kindError => .kindDecode
  | .kindNone _ => .kindDecode
  | .reset => .reset
  | .frame p => .frame p
  | .hdr n => .hdr n

/-- The bytes of an instruction: the input byte of a class, the `payload[0]` of a kind row, the expansion of a notation,
and none for an operation that has no wire encoding (R67, R147). -/
def encodeBytes : Instr → List Byte
  | .kindRequest => [kindCode .request]
  | .kindStream => [kindCode .stream]
  | .kindResponse => [kindCode .response]
  | .kindError => [kindCode .error]
  | .kindNone v => [v]
  | .frame p => frameEncode p
  | .hdr n => headerBytes n
  | i =>
    match encode i with
    | .byte b => [b]
    | _ => []

/-- The conditions on registers under which a row of R64 applies: the state of its `format`, its `cond`, and for a row
marked "otherwise" that no earlier row of its state applies. Operations invoked by name apply in every state. -/
def selectedIn (c : Ctx) : Instr → Bool
  | .wsSync => c.position == .waitSync
  | .wsSkip _ => c.position == .waitSync
  | .llStore _ => c.position == .getLengthLow
  | .lhOk b => c.position == .getLengthHigh && lengthFits c b
  | .lhTooLarge b => c.position == .getLengthHigh && !lengthFits c b
  | .hcOk b => c.position == .getHeaderCrc && headerMatches c b
  | .hcBad b => c.position == .getHeaderCrc && !headerMatches c b
  | .dsOk => c.position == .waitDataSync && c.declaredLength != 0
  | .dsEmpty => c.position == .waitDataSync && c.declaredLength == 0
  | .dsBad _ => c.position == .waitDataSync
  | .gdMore _ => c.position == .getData && moreToCome c
  | .gdLast _ => c.position == .getData && !moreToCome c
  | .fcOk b => c.position == .getFooterCrc && b == c.runCrc
  | .fcBad b => c.position == .getFooterCrc && b != c.runCrc
  | .sbOk => c.position == .getStopByte
  | .sbBad _ => c.position == .getStopByte
  | .kindRequest => c.payload0 == some (kindCode .request)
  | .kindStream => c.payload0 == some (kindCode .stream)
  | .kindResponse => c.payload0 == some (kindCode .response)
  | .kindError => c.payload0 == some (kindCode .error)
  | .kindNone v => c.payload0 == some v
  | .crcStep _ => true
  | .crcUpdate _ _ => true
  | .crcCalc _ _ => true
  | .crcClr => true
  | .crcLoad _ => true
  | .crcUpd _ => true
  | .crcRead => true
  | .reset => true
  | .frame _ => true
  | .hdr _ => true

/-- One row of the class table: `format`, `match`, `mask`, `cond`, and the class it names (R64). -/
structure ClassRow where
  position : Position
  pattern : Byte
  mask : Byte
  cond : Ctx → Byte → Bool
  make : Byte → Instr

/-- A row applies when its state is the current one, its byte test `(b & mask) == match` holds and its `cond` holds. -/
def ClassRow.applies (c : Ctx) (b : Byte) (r : ClassRow) : Bool :=
  c.position == r.position && (b &&& r.mask) == r.pattern && r.cond c b

/-- A row with no `cond` of its own. -/
def noCond : Ctx → Byte → Bool := fun _ _ => true

/-- The sixteen rows of spec/opcode_table.json that are decoded from an input byte, in the table's order. `GD.LAST` stands
without its condition, as the remaining row of its state: log entry 14. -/
def classRows : List ClassRow :=
  [ ⟨.waitSync, 0xFA, 0xFF, noCond, fun _ => .wsSync⟩,
    ⟨.waitSync, 0x00, 0x00, noCond, .wsSkip⟩,
    ⟨.getLengthLow, 0x00, 0x00, noCond, .llStore⟩,
    ⟨.getLengthHigh, 0x00, 0x00, lengthFits, .lhOk⟩,
    ⟨.getLengthHigh, 0x00, 0x00, noCond, .lhTooLarge⟩,
    ⟨.getHeaderCrc, 0x00, 0x00, headerMatches, .hcOk⟩,
    ⟨.getHeaderCrc, 0x00, 0x00, noCond, .hcBad⟩,
    ⟨.waitDataSync, 0xFB, 0xFF, fun c _ => c.declaredLength != 0, fun _ => .dsOk⟩ ]
  ++
  [ ⟨.waitDataSync, 0xFB, 0xFF, fun c _ => c.declaredLength == 0, fun _ => .dsEmpty⟩,
    ⟨.waitDataSync, 0x00, 0x00, noCond, .dsBad⟩,
    ⟨.getData, 0x00, 0x00, fun c _ => moreToCome c, .gdMore⟩,
    ⟨.getData, 0x00, 0x00, noCond, .gdLast⟩,
    ⟨.getFooterCrc, 0x00, 0x00, fun c b => b == c.runCrc, .fcOk⟩,
    ⟨.getFooterCrc, 0x00, 0x00, noCond, .fcBad⟩,
    ⟨.getStopByte, 0xFE, 0xFF, noCond, fun _ => .sbOk⟩,
    ⟨.getStopByte, 0x00, 0x00, noCond, .sbBad⟩ ]

/-- What R64 says of the table: the first row whose byte test and `cond` both hold. -/
def tableClass (c : Ctx) (b : Byte) : Option Instr :=
  (classRows.find? (ClassRow.applies c b)).map fun r => r.make b

/-- The format of the first row of spec/opcode_table.json that FIXES a byte; a byte that no row fixes belongs to the first
row that leaves it open, `WS.SKIP`. Log entry 8. -/
inductive TableFormat where
  | waitSync | waitDataSync | getStopByte | payloadByte0
  deriving DecidableEq, Repr

/-- The format in which a bare table word is read (log entry 8). -/
def tableFormat (b : Byte) : TableFormat :=
  if b = dsyncByte then .waitDataSync
  else if b = stopByte then .getStopByte
  else if (decodeKind b).isSome then .payloadByte0
  else .waitSync

/-- The registers under which a bare table word is read: its row's state, with one payload byte declared in
`WaitDataSync` (the first of the two rows that fix `0xFB`). -/
def tableCtx (b : Byte) : Ctx :=
  { cfg := Config.standard
    position :=
      match tableFormat b with
      | .waitSync => .waitSync
      | .waitDataSync => .waitDataSync
      | .getStopByte => .getStopByte
      | .payloadByte0 => .waitSync
    declaredLength := 1
    receivedLength := 0
    runCrc := 0
    payload0 := some b }

/-- The input that presents a bare table word. -/
def tableInput (b : Byte) : Input :=
  match tableFormat b with
  | .payloadByte0 => .kindDecode
  | _ => .byte b

/-- The instruction this decoder reads from a table word: every row of the table is one byte wide. -/
def decodeTableWord (nbits w : Nat) : Option Instr :=
  if nbits ≤ 8 then
    match decode (tableCtx (BitVec.ofNat 8 w)) (tableInput (BitVec.ofNat 8 w)) with
    | .ok i => some i
    | .error _ => none
  else none

end Sys2Proof
end

