-- ==== Sys2Proof/Machine/State.lean ====
section
/-! DEFINITION. The state of the block as plain data (spec/10_state.md), the reasons a step can stop, and reset. -/

namespace Sys2Proof.Machine

/-- The block's only memory, the payload buffer, as (index, byte) pairs (R27, R46). Canonical form: `Memory.wf`. -/
abbrev Memory := List Host.Cell

/-- The packet value handed to the sink (R29). -/
structure Packet where
  payload : List Byte
  declaredLength : Half
  receivedLength : Half
  headerCrc : Byte
  footerCrc : Byte
  sequence : Option Byte
  kind : Option Kind
  valid : Bool
  deriving DecidableEq, Repr

/-- One event on the block's outputs. -/
inductive Output where
  /-- `PKT`: a packet handed to the packet sink (R108). -/
  | packet (p : Packet)
  /-- `DROP(cause)`: the diagnostic drop report, which the sink does not receive (R130). -/
  | drop (c : DropCause)
  /-- The value returned by a CRC operation invoked by name (R71 to R73, R80). -/
  | result (v : Byte)
  deriving DecidableEq, Repr

/-- The framer's registers and its buffer (the table of R13). -/
structure Framer where
  /-- The register `state` (R15). -/
  position : Position
  /-- `declared_length` (R18). -/
  declaredLength : Half
  /-- `received_length` (R19). -/
  receivedLength : Half
  /-- `header_crc` (R20). -/
  headerCrc : Byte
  /-- `footer_crc` (R21). -/
  footerCrc : Byte
  /-- `run_crc`, hidden (R22). -/
  runCrc : Byte
  /-- `kind` (R24); `none` is a value the spec gives it. -/
  kind : Option Kind
  /-- `sequence` (R23); `none` is a value the spec gives it. -/
  sequence : Option Byte
  /-- `valid`, the only flag (R25). -/
  valid : Bool
  /-- `payload[0 .. C-1]` (R27): only the bytes that are architectural are held. -/
  payload : Memory
  deriving DecidableEq, Repr

/-- `RESET_STATE` of the framer (R33). -/
def Framer.reset : Framer :=
  { position := .waitSync
    declaredLength := 0
    receivedLength := 0
    headerCrc := 0
    footerCrc := 0
    runCrc := 0
    kind := none
    sequence := none
    valid := false
    payload := [] }

/-- The whole machine. -/
structure State where
  /-- The build-time parameters (R7, R35): read by steps, written by none (R149); log entry 1. -/
  cfg : Config
  /-- The framer (R13). -/
  framer : Framer
  /-- The register `crc` of the stand-alone CRC generator (R30). -/
  crc : Byte
  /-- The input stream still to be presented, next first (R28, R153); log entry 2. -/
  input : List Input
  /-- The outputs so far, oldest first (R29, R120, R130): written by steps, read by none; log entry 3. -/
  output : List Output
  deriving DecidableEq, Repr

/-- Why the machine stops with a fault. Both are safe: an access the spec gives no meaning ends the run. From a state that has
the invariant no orderly input makes a step stop so (`orderlyInput` of Safety.lean). -/
inductive Fault where
  /-- `MemRead` at an index that holds no architectural value (R36). Raised by the emission of `SB.OK` and by a kind decode
  with no first payload byte. Safe. -/
  | unwrittenByte (index : Nat)
  /-- `MemWrite` at an index outside `0 .. C-1`, which the spec says does not exist (R38, R46). Raised by `GD.MORE` and
  `GD.LAST`. Safe. -/
  | outsideBuffer (index : Nat)
  deriving DecidableEq, Repr

/-- Why an instruction or an input has no meaning. All are safe: the run ends and nothing is provable of what follows. -/
inductive Refusal where
  /-- An instruction without a meaning in this model. No arm of `exec` raises it. Safe. -/
  | notModelled (mnemonic : String)
  /-- A byte presented while a step is executing, by the sink or by a second driver. Raised by the step
  (R154, R158; U3, U4: "refuse"). Safe. -/
  | byteInStep
  /-- A `Reset` presented while a step is executing. Raised by the step (R158, R161; U3, U10: "refuse"). Safe. -/
  | resetInStep
  /-- `FRAME(p)` with `len(p) > MAX_LEN`: "`FrameEncode` is not defined" there (R115). Raised by the step and by the
  meaning of `FRAME`. Safe. -/
  | frameTooLong
  deriving DecidableEq, Repr

/-- The outcome of a step or of a meaning. -/
abbrev Result := Host.Outcome State Fault Refusal

/-- The machine right after reset with the default parameters (R7, R33): nothing presented yet, nothing emitted. -/
def State.reset : State :=
  { cfg := Config.standard
    framer := Framer.reset
    crc := 0
    input := []
    output := [] }

end Sys2Proof.Machine
end

