-- ==== Sys2Proof/Machine/Flags.lean ====
section
/-! DEFINITION. The block's only flag, `valid` (R25), and the two ways a step writes it. -/

namespace Sys2Proof.Machine

/-- `valid <- v`. -/
def Framer.withValid (f : Framer) (v : Bool) : Framer := { f with valid := v }

/-- `valid <- true`, done by the accepting `GetStopByte` step and no other (R25, R107). -/
def Framer.markValid (f : Framer) : Framer := f.withValid true

end Sys2Proof.Machine
end

