-- ==== Sys2Proof/Machine/Ops.lean ====
section
/-! DEFINITION. The named operations over the buffer, the registers, the input and the outputs; taking the block's one
exception, `raise Drop(cause)`; and handing over a packet. There is no return operation to model (R135). -/

namespace Sys2Proof.Machine

/-! ### The payload buffer (R27, R36, R37) -/

/-- What an index that no entry lists reads as: nothing, since such a byte has no architectural value (R27). -/
def Memory.unlisted : Option Byte := none

/-- The byte held at an index. -/
def Memory.read : Memory → Nat → Option Byte
  | [], _ => Memory.unlisted
  | (k, v) :: rest, a => if a = k then some v else Memory.read rest a

/-- The buffer with a byte stored at an index; the entries stay in rising order. -/
def Memory.write : Memory → Nat → Byte → Memory
  | [], a, v => [(a, v)]
  | (k, w) :: rest, a, v =>
    if a < k then (a, v) :: (k, w) :: rest
    else if a = k then (a, v) :: rest
    else (k, w) :: Memory.write rest a v

/-- The canonical form: indices strictly rising. An entry never equals what an unlisted index reads as, which is no
value at all. -/
def Memory.wf : Memory → Bool
  | [] => true
  | [_] => true
  | (a, _) :: (b, v) :: rest => decide (a < b) && Memory.wf ((b, v) :: rest)

/-! ### Register updates, one name each -/

/-- `state <- p` (R16). -/
def Framer.goto (f : Framer) (p : Position) : Framer := { f with position := p }

/-- `declared_length <- n`. -/
def Framer.withDeclaredLength (f : Framer) (n : Half) : Framer := { f with declaredLength := n }

/-- `received_length <- n`. -/
def Framer.withReceivedLength (f : Framer) (n : Half) : Framer := { f with receivedLength := n }

/-- `header_crc <- b`. -/
def Framer.withHeaderCrc (f : Framer) (b : Byte) : Framer := { f with headerCrc := b }

/-- `footer_crc <- b`. -/
def Framer.withFooterCrc (f : Framer) (b : Byte) : Framer := { f with footerCrc := b }

/-- `run_crc <- b`. -/
def Framer.withRunCrc (f : Framer) (b : Byte) : Framer := { f with runCrc := b }

/-- `kind <- k`. -/
def Framer.withKind (f : Framer) (k : Option Kind) : Framer := { f with kind := k }

/-- `sequence <- q`. -/
def Framer.withSequence (f : Framer) (q : Option Byte) : Framer := { f with sequence := q }

/-- The buffer replaced. -/
def Framer.withPayload (f : Framer) (m : Memory) : Framer := { f with payload := m }

/-- The framer's registers replaced; the rest of the machine as before. -/
def State.withFramer (s : State) (f : Framer) : State := { s with framer := f }

/-- `crc <- v` (R30). -/
def State.withCrc (s : State) (v : Byte) : State := { s with crc := v }

/-- The input stream replaced. -/
def State.withInput (s : State) (xs : List Input) : State := { s with input := xs }

/-- One more event on the outputs, after those before it. -/
def State.emit (s : State) (o : Output) : State := { s with output := s.output ++ [o] }

/-! ### `MemRead`, `MemWrite` -/

/-- `MemRead(addr, 1)`: defined only below `received_length` (R36). -/
def memRead (f : Framer) (a : Nat) : Except Fault Byte :=
  if a < f.receivedLength.toNat then
    match f.payload.read a with
    | some v => .ok v
    | none => .error (.unwrittenByte a)
  else .error (.unwrittenByte a)

/-- `MemWrite(addr, 1, v)` (R37); the buffer has indices `0 .. C-1` only (R46). -/
def memWrite (cfg : Config) (f : Framer) (a : Nat) (v : Byte) : Except Fault Framer :=
  if a < cfg.capacity then .ok (f.withPayload (f.payload.write a v)) else .error (.outsideBuffer a)

/-- `[MemRead(i, 1) for i in start .. start + count - 1]`. -/
def memReadRange (f : Framer) (start : Nat) : Nat → Except Fault (List Byte)
  | 0 => .ok []
  | count + 1 =>
    match memRead f start with
    | .error e => .error e
    | .ok v =>
      match memReadRange f (start + 1) count with
      | .error e => .error e
      | .ok vs => .ok (v :: vs)

/-! ### The input side -/

/-- Taking the next input off the stream; reading the input is destructive (R45). -/
def fetch (s : State) : Option (Input × State) :=
  match s.input with
  | [] => none
  | x :: rest => some (x, s.withInput rest)

/-- The registers that the class conditions read, as the decoder wants them. -/
def State.ctx (s : State) : Ctx :=
  { cfg := s.cfg
    position := s.framer.position
    declaredLength := s.framer.declaredLength
    receivedLength := s.framer.receivedLength
    runCrc := s.framer.runCrc
    payload0 :=
      match memRead s.framer 0 with
      | .ok v => some v
      | .error _ => none }

/-- Bytes put at the front of the input stream: how a notation of R68 expands in place. -/
def State.expand (s : State) (bytes : List Byte) : State := s.withInput (bytes.map Input.byte ++ s.input)

/-- What the machine answers to an input that stands for no instruction. -/
def rejected : Reject → Result
  | .noPayloadByte => .fault (.unwrittenByte 0)
  | .byteInStep => .refused .byteInStep
  | .resetInStep => .refused .resetInStep
  | .frameTooLong => .refused .frameTooLong

/-! ### The exception, and the hand-over of a packet -/

/-- `raise Drop(cause)` (R131): the drop report, every framer register at its reset value, `state` at `WaitSync`; nothing
is saved, and the sink is not called. The stand-alone `crc` is no register of the framer (R30; log entry 4). -/
def raiseDrop (cause : DropCause) (s : State) : State := (s.emit (.drop cause)).withFramer Framer.reset

/-- The packet that the registers and the copied payload make (R107). -/
def packetOf (f : Framer) (payload : List Byte) : Packet :=
  { payload := payload
    declaredLength := f.declaredLength
    receivedLength := f.receivedLength
    headerCrc := f.headerCrc
    footerCrc := f.footerCrc
    sequence := f.sequence
    kind := f.kind
    valid := f.valid }

/-- The accepting end of a frame, in R107's order: the flag, the copy handed to the sink (R108), the reset (R109). -/
def acceptPacket (s : State) : Result :=
  match memReadRange s.framer.markValid 0 s.framer.receivedLength.toNat with
  | .error e => .fault e
  | .ok bytes => .next ((s.emit (.packet (packetOf s.framer.markValid bytes))).withFramer Framer.reset)

/-! ### Collecting one payload byte: the body `GD.MORE` and `GD.LAST` share (R98) -/

/-- `if received_length == 1 then kind <- DecodeKind(b)` (R105). -/
def Framer.noteKind (f : Framer) (b : Byte) : Framer :=
  if f.receivedLength = 1 then f.withKind (decodeKind b) else f

/-- `if received_length == 2 then sequence <- some(b)` (R106). -/
def Framer.noteSequence (f : Framer) (b : Byte) : Framer :=
  if f.receivedLength = 2 then f.withSequence (some b) else f

/-- `if received_length == declared_length then state <- GetFooterCrc` (R101). -/
def Framer.endPayload (f : Framer) : Framer :=
  if f.receivedLength = f.declaredLength then f.goto .getFooterCrc else f

/-- The count and the fold of R99 and R100, after the store. -/
def Framer.countAndFold (f : Framer) (b : Byte) : Framer :=
  (f.withReceivedLength (f.receivedLength + 1)).withRunCrc (crcUpdate f.runCrc b)

/-- `GD(b)` in R98's order: store and count, fold, decode, test for the end. -/
def collectByte (b : Byte) (s : State) : Result :=
  match memWrite s.cfg s.framer s.framer.receivedLength.toNat b with
  | .error e => .fault e
  | .ok f => .next (s.withFramer ((((f.countAndFold b).noteKind b).noteSequence b).endPayload))

/-! ### Placing a bare table word (log entry 8) -/

/-- The input that presents a bare table word, put at the front of the stream, with the registers its row selects on. -/
def placeWord (b : Byte) (s : State) : State :=
  let s := s.withInput (tableInput b :: s.input)
  match tableFormat b with
  | .waitSync => s.withFramer (s.framer.goto .waitSync)
  | .waitDataSync =>
    s.withFramer ((if s.framer.declaredLength = 0 then s.framer.withDeclaredLength 1 else s.framer).goto .waitDataSync)
  | .getStopByte => s.withFramer (s.framer.goto .getStopByte)
  | .payloadByte0 =>
    s.withFramer ((if s.framer.receivedLength = 0 then s.framer.withReceivedLength 1 else s.framer).withPayload
      (s.framer.payload.write 0 b))

end Sys2Proof.Machine
end

