-- ==== Sys2Proof/Machine/CrcUnit.lean ====
section
/-! DEFINITION. The CRC-8 operations invoked by name (spec/40_crc8.md): the pure ones return their value on the outputs;
the register ones work on the stand-alone `crc` (log entry 5). None writes a flag or raises an exception (R70). -/

namespace Sys2Proof.Machine

/-- `CRC8.STEP(c)` (R71). -/
def execCrcStep (c : Byte) (s : State) : Result := .next (s.emit (.result (crcStep c)))

/-- `CRC8.UPDATE(c, b)` (R72). -/
def execCrcUpdate (c b : Byte) (s : State) : Result := .next (s.emit (.result (crcUpdate c b)))

/-- `CRC8.CALC(data, seed)` (R73). -/
def execCrcCalc (data : List Byte) (seed : Byte) (s : State) : Result :=
  .next (s.emit (.result (crcCalc data seed)))

/-- `CRC8.CLR` (R77): `crc <- 0x00`. -/
def execCrcClr (s : State) : Result := .next (s.withCrc crcInit)

/-- `CRC8.LOAD(v)` (R78): `crc <- v`. -/
def execCrcLoad (v : Byte) (s : State) : Result := .next (s.withCrc v)

/-- `CRC8.UPD(b)` (R79): `crc <- CRC8.UPDATE(crc, b)`. -/
def execCrcUpd (b : Byte) (s : State) : Result := .next (s.withCrc (crcUpdate s.crc b))

/-- `CRC8.READ` (R80): returns `crc` and writes nothing. -/
def execCrcRead (s : State) : Result := .next (s.emit (.result s.crc))

end Sys2Proof.Machine
end

