-- ==== Sys2Proof/Machine/Event.lean ====
section
/-! DEFINITION. The reset event (spec/70_reset_and_hazards.md) and the two notations of R68, which expand in the stream. -/

namespace Sys2Proof.Machine

/-- `RESET` (R147, R148): every register of the framer and the stand-alone `crc` at its reset value, silently; the
parameters are not touched (R149). -/
def execReset (s : State) : Result := .next ((s.withFramer Framer.reset).withCrc crcInit)

/-- `FRAME(p)` (R68, R114): the notation gives way to the bytes it stands for. Not defined above `MAX_LEN` (R115). -/
def execFrame (p : List Byte) (s : State) : Result :=
  if p.length ≤ s.cfg.maxLen then .next (s.expand (frameEncode p)) else .refused .frameTooLong

/-- `HDR(n)` (R68): the notation gives way to the five header bytes, for every 16-bit length (R53); what the framer does with
a length above `MAX_LEN` is R87's. Log entry 9. -/
def execHdr (n : Half) (s : State) : Result :=
  .next (s.expand (headerBytes n))

end Sys2Proof.Machine
end

