-- ==== Sys2Proof/Machine/Header.lean ====
section
/-! DEFINITION. The framer steps of the header phase (spec/41_framer_header.md). -/

namespace Sys2Proof.Machine

/-- `WS.SYNC` (R84): every working register takes its reset value, then `state <- GetLengthLow`. -/
def execWsSync (s : State) : Result := .next (s.withFramer (Framer.reset.goto .getLengthLow))

/-- `WS.SKIP` (R83): the byte is ignored; no register changes and there is no output. -/
def execWsSkip (_b : Byte) (s : State) : Result := .next s

/-- `LL.STORE` (R85): `declared_length <- zext_16(b)`; no length check is made here (R95). -/
def execLlStore (b : Byte) (s : State) : Result :=
  .next (s.withFramer ((s.framer.withDeclaredLength (lengthFromLow b)).goto .getLengthHigh))

/-- `LH.OK` (R86): the length is complete. -/
def execLhOk (b : Byte) (s : State) : Result :=
  .next (s.withFramer ((s.framer.withDeclaredLength (assembleLength b s.framer.declaredLength)).goto .getHeaderCrc))

/-- `LH.TOOLARGE` (R87): `raise Drop(FrameTooLarge)`. -/
def execLhTooLarge (_b : Byte) (s : State) : Result := .next (raiseDrop .frameTooLarge s)

/-- `HC.OK` (R88): the received byte is kept in `header_crc`. -/
def execHcOk (b : Byte) (s : State) : Result :=
  .next (s.withFramer ((s.framer.withHeaderCrc b).goto .waitDataSync))

/-- `HC.BAD` (R89): `raise Drop(HeaderCrcMismatch)`. -/
def execHcBad (_b : Byte) (s : State) : Result := .next (raiseDrop .headerCrcMismatch s)

/-- `DS.OK` (R90): the marker is neither stored nor folded into a checksum. -/
def execDsOk (s : State) : Result := .next (s.withFramer (s.framer.goto .getData))

/-- `DS.EMPTY` (R91): no payload byte to collect. -/
def execDsEmpty (s : State) : Result := .next (s.withFramer (s.framer.goto .getFooterCrc))

/-- `DS.BAD` (R92): `raise Drop(DataSyncMismatch)`. -/
def execDsBad (_b : Byte) (s : State) : Result := .next (raiseDrop .dataSyncMismatch s)

end Sys2Proof.Machine
end

