-- ==== Sys2Proof/Machine/Payload.lean ====
section
/-! DEFINITION. The framer steps of the payload and footer phase, and the kind rows (spec/42_framer_payload_footer.md). -/

namespace Sys2Proof.Machine

/-- `GD.MORE` (R98): the shared body; the byte is not the last. -/
def execGdMore (b : Byte) (s : State) : Result := collectByte b s

/-- `GD.LAST` (R98): the shared body; the end test moves on to `GetFooterCrc` (R101). -/
def execGdLast (b : Byte) (s : State) : Result := collectByte b s

/-- `FC.OK` (R103): the received byte is kept in `footer_crc`. -/
def execFcOk (b : Byte) (s : State) : Result :=
  .next (s.withFramer ((s.framer.withFooterCrc b).goto .getStopByte))

/-- `FC.BAD` (R104): `raise Drop(DataCrcMismatch)`. -/
def execFcBad (_b : Byte) (s : State) : Result := .next (raiseDrop .dataCrcMismatch s)

/-- `SB.OK` (R107 to R109): flag, emission, reset. -/
def execSbOk (s : State) : Result := acceptPacket s

/-- `SB.BAD` (R110): `raise Drop(StopByteMismatch)`. -/
def execSbBad (_b : Byte) (s : State) : Result := .next (raiseDrop .stopByteMismatch s)

/-- `KIND.REQUEST` (R105): `kind <- some(Request)`. -/
def execKindRequest (s : State) : Result := .next (s.withFramer (s.framer.withKind (some .request)))

/-- `KIND.STREAM` (R105): `kind <- some(Stream)`. -/
def execKindStream (s : State) : Result := .next (s.withFramer (s.framer.withKind (some .stream)))

/-- `KIND.RESPONSE` (R105): `kind <- some(Response)`. -/
def execKindResponse (s : State) : Result := .next (s.withFramer (s.framer.withKind (some .response)))

/-- `KIND.ERROR` (R105): `kind <- some(Error)`. -/
def execKindError (s : State) : Result := .next (s.withFramer (s.framer.withKind (some .error)))

/-- `KIND.NONE` (R105, R63): `kind <- none`; the reserved code stays readable as `payload[0]`. -/
def execKindNone (_v : Byte) (s : State) : Result := .next (s.withFramer (s.framer.withKind none))

end Sys2Proof.Machine
end

