-- ==== Sys2Proof/Machine/Dispatch.lean ====
section
/-! DEFINITION. One arm per instruction, each one direct call of that instruction's meaning. -/

namespace Sys2Proof.Machine

/-- What an instruction does to a state. -/
def exec (i : Instr) (s : State) : Host.Outcome State Fault Refusal :=
  match i with
  | .wsSync => Sys2Proof.Machine.execWsSync s
  | .wsSkip b => Sys2Proof.Machine.execWsSkip b s
  | .llStore b => Sys2Proof.Machine.execLlStore b s
  | .lhOk b => Sys2Proof.Machine.execLhOk b s
  | .lhTooLarge b => Sys2Proof.Machine.execLhTooLarge b s
  | .hcOk b => Sys2Proof.Machine.execHcOk b s
  | .hcBad b => Sys2Proof.Machine.execHcBad b s
  | .dsOk => Sys2Proof.Machine.execDsOk s
  | .dsEmpty => Sys2Proof.Machine.execDsEmpty s
  | .dsBad b => Sys2Proof.Machine.execDsBad b s
  | .gdMore b => Sys2Proof.Machine.execGdMore b s
  | .gdLast b => Sys2Proof.Machine.execGdLast b s
  | .fcOk b => Sys2Proof.Machine.execFcOk b s
  | .fcBad b => Sys2Proof.Machine.execFcBad b s
  | .sbOk => Sys2Proof.Machine.execSbOk s
  | .sbBad b => Sys2Proof.Machine.execSbBad b s
  | .crcStep c => Sys2Proof.Machine.execCrcStep c s
  | .crcUpdate c b => Sys2Proof.Machine.execCrcUpdate c b s
  | .crcCalc data seed => Sys2Proof.Machine.execCrcCalc data seed s
  | .crcClr => Sys2Proof.Machine.execCrcClr s
  | .crcLoad v => Sys2Proof.Machine.execCrcLoad v s
  | .crcUpd b => Sys2Proof.Machine.execCrcUpd b s
  | .crcRead => Sys2Proof.Machine.execCrcRead s
  | .kindRequest => Sys2Proof.Machine.execKindRequest s
  | .kindStream => Sys2Proof.Machine.execKindStream s
  | .kindResponse => Sys2Proof.Machine.execKindResponse s
  | .kindError => Sys2Proof.Machine.execKindError s
  | .kindNone v => Sys2Proof.Machine.execKindNone v s
  | .reset => Sys2Proof.Machine.execReset s
  | .frame p => Sys2Proof.Machine.execFrame p s
  | .hdr n => Sys2Proof.Machine.execHdr n s

end Sys2Proof.Machine
end

