-- ==== Sys2Proof/Machine/Step.lean ====
section
/-! DEFINITION. One step: the next input is taken off the stream, decoded under the registers, and executed. -/

namespace Sys2Proof.Machine

/-- One step. With no input presented the block waits in whatever state it is in, for as long as that lasts (R138). -/
def step (s : State) : Host.Outcome State Fault Refusal :=
  match fetch s with
  | none => .next s
  | some (x, s1) =>
    match decode s1.ctx x with
    | .ok i => exec i s1
    | .error r => rejected r

/-- The table word placed where the next step takes its input, with the registers its row selects on (log entry 8). -/
def State.withFetchWord (s : State) (_nbits w : Nat) : State := placeWord (BitVec.ofNat 8 w) s

end Sys2Proof.Machine
end

