-- ==== Sys2Proof/Machine/Run.lean ====
section
/-! DEFINITION. Runs over finite byte streams (spec/43_frame_reference.md, R120): the fold of the step, with each output
tagged by the offset of the byte whose step produced it. A reference function, not an operation of the block. -/

namespace Sys2Proof.Machine

/-- `n` steps of the machine on the input it holds, stopping at the first fault or refusal. -/
def runSteps : Nat → State → Result
  | 0, s => .next s
  | n + 1, s =>
    match step s with
    | .next t => runSteps n t
    | .fault r => .fault r
    | .refused r => .refused r

/-- `process_byte(b)`: the driver presents one byte and the block takes one step. -/
def presentByte (b : Byte) (s : State) : Result := step (s.withInput (.byte b :: s.input))

/-- The outputs that `t` has beyond those of `s`, tagged with `offset`. -/
def newOutputs (offset : Nat) (s t : State) : List (Nat × Output) :=
  (t.output.drop s.output.length).map fun o => (offset, o)

/-- `Run(s, S0)` from offset `offset` on (R120): the tagged outputs in order, and the state after the last byte. -/
def runBytes (offset : Nat) : List Byte → State → Host.Outcome (List (Nat × Output) × State) Fault Refusal
  | [], s => .next ([], s)
  | b :: rest, s =>
    match presentByte b s with
    | .fault r => .fault r
    | .refused r => .refused r
    | .next t =>
      match runBytes (offset + 1) rest t with
      | .fault r => .fault r
      | .refused r => .refused r
      | .next (outs, u) => .next (newOutputs offset s t ++ outs, u)

/-- `Packets(s)`: the sub-list of emissions of a list of tagged outputs (R120). -/
def packetsOf : List (Nat × Output) → List Packet
  | [] => []
  | (_, .packet p) :: rest => p :: packetsOf rest
  | (_, .drop _) :: rest => packetsOf rest
  | (_, .result _) :: rest => packetsOf rest

end Sys2Proof.Machine
end

