-- ==== Sys2Proof/Safety.lean ====
section
/-! DEFINITION. What a good state and a good run are, in the terms the claims use. -/

namespace Sys2Proof.Machine

/-- The bytes the buffer holds, in index order. -/
def Framer.collected (f : Framer) : List Byte := f.payload.map Prod.snd

/-- What holds of the payload registers in every state the block can reach: the buffer holds the bytes at indices
`0 .. received_length - 1` (R27, R99), `run_crc` is their checksum (R22, R100), `kind` and `sequence` are decoded from the
first two (R23, R24), and `valid` is false (R25). -/
structure Framer.Collecting (f : Framer) : Prop where
  indices : f.payload.map Prod.fst = List.range f.receivedLength.toNat
  runCrc : f.runCrc = crc8 f.collected
  kind : f.kind = f.collected[0]?.bind decodeKind
  sequence : f.sequence = f.collected[1]?
  valid : f.valid = false

/-- What holds of the registers in each position: the reset state in `WaitSync` (R34), nothing but the length until the
header checksum is checked, the length bound after it (R18), a payload still open in `GetData` (R38) and complete after
it (R101), the checksums carried in the frame once they are accepted (R20, R21). -/
def Framer.InPosition (cfg : Config) (f : Framer) : Prop :=
  match f.position with
  | .waitSync => f = Framer.reset
  | .getLengthLow => f = Framer.reset.goto .getLengthLow
  | .getLengthHigh =>
    f.declaredLength.toNat < 256 ∧ f = (Framer.reset.withDeclaredLength f.declaredLength).goto .getLengthHigh
  | .getHeaderCrc =>
    f.declaredLength.toNat ≤ cfg.maxLen ∧ f = (Framer.reset.withDeclaredLength f.declaredLength).goto .getHeaderCrc
  | .waitDataSync =>
    f.declaredLength.toNat ≤ cfg.maxLen ∧ f.headerCrc = headerCrcOf f.declaredLength
      ∧ f.receivedLength = 0 ∧ f.footerCrc = 0
  | .getData =>
    f.declaredLength.toNat ≤ cfg.maxLen ∧ f.headerCrc = headerCrcOf f.declaredLength
      ∧ f.receivedLength.toNat < f.declaredLength.toNat ∧ f.footerCrc = 0
  | .getFooterCrc =>
    f.declaredLength.toNat ≤ cfg.maxLen ∧ f.headerCrc = headerCrcOf f.declaredLength
      ∧ f.receivedLength = f.declaredLength ∧ f.footerCrc = 0
  | .getStopByte =>
    f.declaredLength.toNat ≤ cfg.maxLen ∧ f.headerCrc = headerCrcOf f.declaredLength
      ∧ f.receivedLength = f.declaredLength ∧ f.footerCrc = f.runCrc

/-- The invariant of the whole machine: legal parameters (R7), and a framer as it can be. -/
structure State.Inv (s : State) : Prop where
  parameters : s.cfg.ok
  collecting : s.framer.Collecting
  inPosition : s.framer.InPosition s.cfg

/-- A packet as the sink may rely on it (R26, R108): `valid`, complete, within the bound, both checksums right for what it
carries, `kind` and `sequence` decoded from its own payload. -/
structure Packet.Genuine (cfg : Config) (p : Packet) : Prop where
  valid : p.valid = true
  complete : p.receivedLength = p.declaredLength
  length : p.payload.length = p.declaredLength.toNat
  bounded : p.declaredLength.toNat ≤ cfg.maxLen
  headerCrc : p.headerCrc = headerCrcOf p.declaredLength
  footerCrc : p.footerCrc = crc8 p.payload
  kind : p.kind = p.payload[0]?.bind decodeKind
  sequence : p.sequence = p.payload[1]?

/-- The packet that a well-formed frame carrying `p` is emitted as (R113). -/
def packetFor (p : List Byte) : Packet :=
  { payload := p
    declaredLength := BitVec.ofNat 16 p.length
    receivedLength := BitVec.ofNat 16 p.length
    headerCrc := headerCrcOf (BitVec.ofNat 16 p.length)
    footerCrc := crc8 p
    sequence := p[1]?
    kind := p[0]?.bind decodeKind
    valid := true }

/-- The inputs that a driver, an owner, or a user of the named operations may present (R67, R68, R153): every byte,
`Reset`, every CRC operation, `HDR`, and `FRAME` within `MAX_LEN` (R115). Left out are the presentations without a meaning and the kind
decode from outside, which the block performs itself. -/
def orderlyInput (cfg : Config) : Input → Bool
  | .byte _ => true
  | .reset => true
  | .crcStep _ => true
  | .crcUpdate _ _ => true
  | .crcCalc _ _ => true
  | .crcClr => true
  | .crcLoad _ => true
  | .crcUpd _ => true
  | .crcRead => true
  | .kindDecode => false
  | .frame p => decide (p.length ≤ cfg.maxLen)
  | .hdr _ => true
  | .byteInStep _ => false
  | .resetInStep => false

end Sys2Proof.Machine
end

