-- ==== Sys2Proof/Certificates/Slice0/Obligations.lean ====
section
/-! DEFINITION. The statements about the block, taken from the numbered rules of spec/. A statement that rests on a
choice of the model, or on an inference the spec marks as its own, says so in its docstring. -/

open Sys2Proof Sys2Proof.Machine

/-! ### Reset, the step, and what the step refuses -/

/-- R33: what reset leaves in every register; no buffer byte is architectural. -/
def Obligations.ResetLeavesTheSpecValues : Prop :=
  State.reset.framer =
      { position := .waitSync, declaredLength := 0x0000#16, receivedLength := 0x0000#16, headerCrc := 0x00#8,
        footerCrc := 0x00#8, runCrc := 0x00#8, kind := none, sequence := none, valid := false, payload := [] }
    ∧ State.reset.crc = 0x00#8
    ∧ ∀ a : Nat, Memory.read State.reset.framer.payload a = none

/-- A step runs the decoded instruction: the input that is next is taken off the stream, and what it decodes to is
executed on the state that is left. -/
def Obligations.StepRunsTheDecodedInstruction : Prop :=
  ∀ (s : State) (x : Input) (rest : List Input) (i : Instr),
    s.input = x :: rest → decode (s.withInput rest).ctx x = .ok i → step s = exec i (s.withInput rest)

/-- With no byte arriving (R138), the block stays in its state, whichever that is, with its partial packet. -/
def Obligations.BlockWaitsWithoutInput : Prop :=
  ∀ s : State, s.input = [] → step s = .next s

/-- A byte or a `Reset` presented while a step is executing is refused (R158, R161; U3, U4, U10). That the stream marks
such a presentation is the model's choice: log entry 7. -/
def Obligations.PresentationInsideAStepIsRefused : Prop :=
  ∀ (s : State) (b : Byte) (rest : List Input),
    step (s.withInput (.byteInStep b :: rest)) = .refused .byteInStep
      ∧ step (s.withInput (.resetInStep :: rest)) = .refused .resetInStep

/-! ### The framer steps of the header phase -/

/-- R83, R84: in `WaitSync` the byte `0xFA` resets the packet registers and moves to `GetLengthLow`; any other byte
changes nothing. -/
def Obligations.SyncStartsAFrameAndOthersAreSkipped : Prop :=
  (∀ s : State, exec .wsSync s = .next { s with framer :=
      { position := .getLengthLow, declaredLength := 0#16, receivedLength := 0#16, headerCrc := 0#8, footerCrc := 0#8,
        runCrc := 0#8, kind := none, sequence := none, valid := false, payload := [] } })
  ∧ (∀ (s : State) (b : Byte), exec (.wsSkip b) s = .next s)
  ∧ (∀ s : State, s.framer.position = .waitSync → presentByte 0xFA#8 s = exec .wsSync s)
  ∧ (∀ (s : State) (b : Byte), s.framer.position = .waitSync → b ≠ 0xFA#8 → presentByte b s = exec (.wsSkip b) s)

/-- R85: in `GetLengthLow` every byte, markers included, becomes the low byte of the length, unchecked. -/
def Obligations.LowLengthByteIsStored : Prop :=
  (∀ (s : State) (b : Byte), exec (.llStore b) s =
      .next { s with framer := { s.framer with declaredLength := b.setWidth 16, position := .getLengthHigh } })
  ∧ (∀ (s : State) (b : Byte), s.framer.position = .getLengthLow → presentByte b s = exec (.llStore b) s)

/-- R86, R87: in `GetLengthHigh` the byte completes the length; a length within `MAX_LEN` is kept, a longer one drops the
frame. -/
def Obligations.HighLengthByteCompletesOrDrops : Prop :=
  ∀ (s : State) (b : Byte) (l : Half), l = (b.setWidth 16 <<< 8) ||| (s.framer.declaredLength.extractLsb' 0 8).setWidth 16 →
    exec (.lhOk b) s = .next { s with framer := { s.framer with declaredLength := l, position := .getHeaderCrc } }
    ∧ (∃ t : State, exec (.lhTooLarge b) s = .next t ∧ t.framer = Framer.reset
        ∧ t.output = s.output ++ [.drop .frameTooLarge])
    ∧ (s.framer.position = .getLengthHigh → l.toNat ≤ s.cfg.maxLen → presentByte b s = exec (.lhOk b) s)
    ∧ (s.framer.position = .getLengthHigh → s.cfg.maxLen < l.toNat → presentByte b s = exec (.lhTooLarge b) s)

/-- R88, R89: in `GetHeaderCrc` the byte must be the checksum of `0xFA` and the two length bytes; it is kept, or the frame
is dropped. -/
def Obligations.HeaderChecksumIsCompared : Prop :=
  ∀ (s : State) (b h : Byte),
    h = crc8 [0xFA#8, s.framer.declaredLength.extractLsb' 0 8, s.framer.declaredLength.extractLsb' 8 8] →
    exec (.hcOk b) s = .next { s with framer := { s.framer with headerCrc := b, position := .waitDataSync } }
    ∧ (∃ t : State, exec (.hcBad b) s = .next t ∧ t.framer = Framer.reset
        ∧ t.output = s.output ++ [.drop .headerCrcMismatch])
    ∧ (s.framer.position = .getHeaderCrc → b = h → presentByte b s = exec (.hcOk b) s)
    ∧ (s.framer.position = .getHeaderCrc → b ≠ h → presentByte b s = exec (.hcBad b) s)

/-- R90, R91, R92: in `WaitDataSync` the byte must be `0xFB`; with an empty payload declared the framer passes over
`GetData`. -/
def Obligations.DataSyncIsRequired : Prop :=
  (∀ s : State, exec .dsOk s = .next { s with framer := { s.framer with position := .getData } })
  ∧ (∀ s : State, exec .dsEmpty s = .next { s with framer := { s.framer with position := .getFooterCrc } })
  ∧ (∀ (s : State) (b : Byte), ∃ t : State, exec (.dsBad b) s = .next t ∧ t.framer = Framer.reset
      ∧ t.output = s.output ++ [.drop .dataSyncMismatch])
  ∧ (∀ s : State, s.framer.position = .waitDataSync →
      (s.framer.declaredLength ≠ 0 → presentByte 0xFB#8 s = exec .dsOk s)
      ∧ (s.framer.declaredLength = 0 → presentByte 0xFB#8 s = exec .dsEmpty s))
  ∧ (∀ (s : State) (b : Byte), s.framer.position = .waitDataSync → b ≠ 0xFB#8 → presentByte b s = exec (.dsBad b) s)

/-! ### The framer steps of the payload and footer phase -/

/-- R98: what a payload byte does, whatever its value: it is stored at index `received_length` and nowhere else, counted,
folded, decoded if it is byte 0 or 1, and the end of the payload is tested after the count. -/
def Obligations.PayloadByteIsCollected : Prop :=
  (∀ (s : State) (b : Byte), s.framer.receivedLength.toNat < s.cfg.capacity →
    ∃ t : State, exec (.gdMore b) s = .next t ∧ exec (.gdLast b) s = .next t
      ∧ Memory.read t.framer.payload s.framer.receivedLength.toNat = some b
      ∧ (∀ a : Nat, a ≠ s.framer.receivedLength.toNat →
          Memory.read t.framer.payload a = Memory.read s.framer.payload a)
      ∧ t.framer.receivedLength = s.framer.receivedLength + 1
      ∧ t.framer.runCrc = crcUpdate s.framer.runCrc b
      ∧ t.framer.kind = (if s.framer.receivedLength + 1 = 1 then decodeKind b else s.framer.kind)
      ∧ t.framer.sequence = (if s.framer.receivedLength + 1 = 2 then some b else s.framer.sequence)
      ∧ t.framer.position =
          (if s.framer.receivedLength + 1 = s.framer.declaredLength then .getFooterCrc else s.framer.position)
      ∧ t.framer.declaredLength = s.framer.declaredLength ∧ t.framer.headerCrc = s.framer.headerCrc
      ∧ t.framer.footerCrc = s.framer.footerCrc ∧ t.framer.valid = s.framer.valid
      ∧ t.cfg = s.cfg ∧ t.crc = s.crc ∧ t.input = s.input ∧ t.output = s.output)
  ∧ (∀ (s : State) (b : Byte), s.framer.position = .getData →
      (s.framer.receivedLength.toNat + 1 < s.framer.declaredLength.toNat → presentByte b s = exec (.gdMore b) s)
      ∧ (s.framer.receivedLength.toNat + 1 = s.framer.declaredLength.toNat → presentByte b s = exec (.gdLast b) s))

/-- R103, R104: in `GetFooterCrc` the byte must be the running checksum; it is kept, or the frame is dropped. -/
def Obligations.DataChecksumIsCompared : Prop :=
  ∀ (s : State) (b : Byte),
    exec (.fcOk b) s = .next { s with framer := { s.framer with footerCrc := b, position := .getStopByte } }
    ∧ (∃ t : State, exec (.fcBad b) s = .next t ∧ t.framer = Framer.reset
        ∧ t.output = s.output ++ [.drop .dataCrcMismatch])
    ∧ (s.framer.position = .getFooterCrc → b = s.framer.runCrc → presentByte b s = exec (.fcOk b) s)
    ∧ (s.framer.position = .getFooterCrc → b ≠ s.framer.runCrc → presentByte b s = exec (.fcBad b) s)

/-- R107, R110: in `GetStopByte` the byte `0xFE` hands over one packet, `valid`, with a copy of every buffer byte below
`received_length`, and resets every register; any other byte drops the frame and hands over nothing. -/
def Obligations.StopByteEmitsOrDrops : Prop :=
  (∀ (s : State) (bytes : List Byte), bytes.length = s.framer.receivedLength.toNat →
      (∀ i : Nat, i < bytes.length → Memory.read s.framer.payload i = bytes[i]?) →
      ∃ t : State, exec .sbOk s = .next t ∧ t.framer = Framer.reset
        ∧ t.output = s.output ++ [.packet
          { payload := bytes, declaredLength := s.framer.declaredLength, receivedLength := s.framer.receivedLength,
            headerCrc := s.framer.headerCrc, footerCrc := s.framer.footerCrc, sequence := s.framer.sequence,
            kind := s.framer.kind, valid := true }])
  ∧ (∀ (s : State) (b : Byte), ∃ t : State, exec (.sbBad b) s = .next t ∧ t.framer = Framer.reset
      ∧ t.output = s.output ++ [.drop .stopByteMismatch])
  ∧ (∀ s : State, s.framer.position = .getStopByte → presentByte 0xFE#8 s = exec .sbOk s)
  ∧ (∀ (s : State) (b : Byte), s.framer.position = .getStopByte → b ≠ 0xFE#8 → presentByte b s = exec (.sbBad b) s)

/-- R105: `DecodeKind`, the `GetData` step that makes `received_length == 1`, and that the decode has no effect on the state
machine: with another `kind` in the register, the same byte gives the same step but for `kind` itself, in the register and in
an emitted packet. -/
def Obligations.KindIsDecodedFromTheFirstPayloadByte : Prop :=
  (decodeKind 0x0B#8 = some .request ∧ decodeKind 0x0C#8 = some .stream ∧ decodeKind 0x16#8 = some .response
    ∧ decodeKind 0x21#8 = some .error
    ∧ ∀ v : Byte, v ≠ 0x0B#8 → v ≠ 0x0C#8 → v ≠ 0x16#8 → v ≠ 0x21#8 → decodeKind v = none)
  ∧ (∀ (s : State) (b : Byte), s.framer.position = .getData → s.framer.receivedLength = 0 → 0 < s.cfg.capacity →
      ∃ t : State, presentByte b s = .next t ∧ t.framer.kind = decodeKind b)
  ∧ (∀ (s t : State) (b : Byte) (k : Option Kind), presentByte b s = .next t →
      ∃ u : State, presentByte b (s.withFramer (s.framer.withKind k)) = .next u
        ∧ { u.framer with kind := none } = { t.framer with kind := none }
        ∧ (u.output.map fun o => match o with | .packet p => Output.packet { p with kind := none } | o => o) =
          (t.output.map fun o => match o with | .packet p => Output.packet { p with kind := none } | o => o)
        ∧ u.cfg = t.cfg ∧ u.crc = t.crc ∧ u.input = t.input)

/-- The five kind rows write `kind` with the value of their code and nothing else, and a kind decode presented by itself, on
the byte that `payload[0]` holds, takes the row of that byte. That a row can be presented so is the model's choice: log
entry 6. -/
def Obligations.KindRowsWriteTheKind : Prop :=
  (∀ (s : State) (v : Byte),
      exec .kindRequest s = .next { s with framer := { s.framer with kind := some .request } }
      ∧ exec .kindStream s = .next { s with framer := { s.framer with kind := some .stream } }
      ∧ exec .kindResponse s = .next { s with framer := { s.framer with kind := some .response } }
      ∧ exec .kindError s = .next { s with framer := { s.framer with kind := some .error } }
      ∧ exec (.kindNone v) s = .next { s with framer := { s.framer with kind := none } })
  ∧ (∀ (s : State) (v : Byte), 0 < s.framer.receivedLength.toNat → Memory.read s.framer.payload 0 = some v →
      step (s.withInput (.kindDecode :: s.input)) =
        .next { s with framer := { s.framer with kind := decodeKind v } })

/-- Where the two payload classes, the emission and the kind decode stop by name instead: a store at an index the buffer
does not have (R46), a read of a byte that holds no value (R36). The faults are the model's: log entry 10. That a class has its
effect, or its fault, in every state it is given is the model's choice too (log entry 13), and so is that a kind decode can be
presented by itself, with this stop where there is no first payload byte, as right after reset (log entry 6). -/
def Obligations.AccessesOutsideTheBufferFault : Prop :=
  (∀ (s : State) (b : Byte), s.cfg.capacity ≤ s.framer.receivedLength.toNat →
    exec (.gdMore b) s = .fault (.outsideBuffer s.framer.receivedLength.toNat)
    ∧ exec (.gdLast b) s = .fault (.outsideBuffer s.framer.receivedLength.toNat))
  ∧ (∀ (s : State) (k : Nat), k < s.framer.receivedLength.toNat → Memory.read s.framer.payload k = none →
      (∀ j : Nat, j < k → Memory.read s.framer.payload j ≠ none) → exec .sbOk s = .fault (.unwrittenByte k))
  ∧ (∀ s : State, s.framer.receivedLength = 0 ∨ Memory.read s.framer.payload 0 = none →
      step (s.withInput (.kindDecode :: s.input)) = .fault (.unwrittenByte 0))

/-! ### Failures -/

/-- R131: the drop sequence, the same for each of the five failing classes: the report goes out, every framer register
takes its reset value, and nothing else changes; the byte is consumed. -/
def Obligations.DropResetsEveryRegister : Prop :=
  ∀ (s : State) (b : Byte) (c : DropCause) (i : Instr),
    (c, i) ∈ [(DropCause.frameTooLarge, Instr.lhTooLarge b), (.headerCrcMismatch, .hcBad b), (.dataSyncMismatch, .dsBad b),
        (.dataCrcMismatch, .fcBad b), (.stopByteMismatch, .sbBad b)] →
    ∃ t : State, exec i s = .next t ∧ t.output = s.output ++ [.drop c]
      ∧ t.framer.position = .waitSync ∧ t.framer.declaredLength = 0 ∧ t.framer.receivedLength = 0
      ∧ t.framer.headerCrc = 0 ∧ t.framer.footerCrc = 0 ∧ t.framer.runCrc = 0
      ∧ t.framer.kind = none ∧ t.framer.sequence = none ∧ t.framer.valid = false
      ∧ (∀ a : Nat, Memory.read t.framer.payload a = none)
      ∧ t.cfg = s.cfg ∧ t.input = s.input

/-- R126: the five causes with their codes, and, for each, exactly the state and the condition on the byte that raise
it. -/
def Obligations.DropCausesArePrecise : Prop :=
  (dropCode .frameTooLarge = 1 ∧ dropCode .headerCrcMismatch = 2 ∧ dropCode .dataSyncMismatch = 3
    ∧ dropCode .dataCrcMismatch = 4 ∧ dropCode .stopByteMismatch = 5)
  ∧ ∀ (s : State) (b : Byte) (c : DropCause),
      (∃ t : State, presentByte b s = .next t ∧ t.output = s.output ++ [.drop c]) ↔
        match c with
        | .frameTooLarge => s.framer.position = .getLengthHigh
            ∧ s.cfg.maxLen < ((b.setWidth 16 <<< 8) ||| (s.framer.declaredLength.extractLsb' 0 8).setWidth 16).toNat
        | .headerCrcMismatch => s.framer.position = .getHeaderCrc
            ∧ b ≠ crc8 [0xFA#8, s.framer.declaredLength.extractLsb' 0 8, s.framer.declaredLength.extractLsb' 8 8]
        | .dataSyncMismatch => s.framer.position = .waitDataSync ∧ b ≠ 0xFB#8
        | .dataCrcMismatch => s.framer.position = .getFooterCrc ∧ b ≠ s.framer.runCrc
        | .stopByteMismatch => s.framer.position = .getStopByte ∧ b ≠ 0xFE#8

/-- A step produces at most one output event (R11), and never takes one back. -/
def Obligations.StepEmitsAtMostOneEvent : Prop :=
  ∀ s t : State, step s = .next t → t.output = s.output ∨ ∃ o : Output, t.output = s.output ++ [o]

/-- R150: from every starting state, if the last byte of a run produced a drop or a packet, the framer is in its reset
state. -/
def Obligations.OutcomeLeavesTheResetState : Prop :=
  ∀ (s u : State) (bytes : List Byte) (b : Byte) (outs : List (Nat × Output)) (o : Output),
    runBytes 0 (bytes ++ [b]) s = .next (outs, u) → (bytes.length, o) ∈ outs → u.framer = Framer.reset

/-- R17: the whole successor relation of `state`, row by row. -/
def Obligations.SuccessorOfEveryPosition : Prop :=
  ∀ (s t : State) (b : Byte), presentByte b s = .next t →
    match s.framer.position with
    | .waitSync =>
      (b = 0xFA#8 → t.framer.position = .getLengthLow) ∧ (b ≠ 0xFA#8 → t.framer.position = .waitSync)
    | .getLengthLow => t.framer.position = .getLengthHigh
    | .getLengthHigh =>
      (((b.setWidth 16 <<< 8) ||| (s.framer.declaredLength.extractLsb' 0 8).setWidth 16).toNat ≤ s.cfg.maxLen →
        t.framer.position = .getHeaderCrc)
      ∧ (s.cfg.maxLen < ((b.setWidth 16 <<< 8) ||| (s.framer.declaredLength.extractLsb' 0 8).setWidth 16).toNat →
        t.framer.position = .waitSync ∧ t.output = s.output ++ [.drop .frameTooLarge])
    | .getHeaderCrc =>
      (b = headerCrcOf s.framer.declaredLength → t.framer.position = .waitDataSync)
      ∧ (b ≠ headerCrcOf s.framer.declaredLength →
        t.framer.position = .waitSync ∧ t.output = s.output ++ [.drop .headerCrcMismatch])
    | .waitDataSync =>
      (b = 0xFB#8 → s.framer.declaredLength ≠ 0 → t.framer.position = .getData)
      ∧ (b = 0xFB#8 → s.framer.declaredLength = 0 → t.framer.position = .getFooterCrc)
      ∧ (b ≠ 0xFB#8 → t.framer.position = .waitSync ∧ t.output = s.output ++ [.drop .dataSyncMismatch])
    | .getData =>
      (s.framer.receivedLength.toNat + 1 < s.framer.declaredLength.toNat → t.framer.position = .getData)
      ∧ (s.framer.receivedLength.toNat + 1 = s.framer.declaredLength.toNat → t.framer.position = .getFooterCrc)
    | .getFooterCrc =>
      (b = s.framer.runCrc → t.framer.position = .getStopByte)
      ∧ (b ≠ s.framer.runCrc → t.framer.position = .waitSync ∧ t.output = s.output ++ [.drop .dataCrcMismatch])
    | .getStopByte =>
      (b = 0xFE#8 → t.framer.position = .waitSync ∧ ∃ p : Packet, t.output = s.output ++ [.packet p])
      ∧ (b ≠ 0xFE#8 → t.framer.position = .waitSync ∧ t.output = s.output ++ [.drop .stopByteMismatch])

/-! ### The CRC-8 operations -/

/-- R71, R72, R73: the values of the three pure operations. -/
def Obligations.PureChecksumOperations : Prop :=
  (∀ c : Byte, crcStep c = if c.getLsbD 7 then (c <<< 1) ^^^ 0x07#8 else c <<< 1)
  ∧ (∀ c b : Byte, crcUpdate c b = crcStep^[8] (c ^^^ b))
  ∧ (∀ (data : List Byte) (seed : Byte), crcCalc data seed = data.foldl crcUpdate seed)
  ∧ (∀ data : List Byte, crc8 data = crcCalc data 0x00#8)

/-- The three pure operations and `CRC8.READ` return their value on the outputs and change nothing else. That "Result" and
"Returns" mean the outputs is the model's choice: log entry 5. -/
def Obligations.ChecksumResultsAreReturned : Prop :=
  (∀ (s : State) (c : Byte), exec (.crcStep c) s = .next { s with output := s.output ++ [.result (crcStep c)] })
  ∧ (∀ (s : State) (c b : Byte),
      exec (.crcUpdate c b) s = .next { s with output := s.output ++ [.result (crcUpdate c b)] })
  ∧ (∀ (s : State) (data : List Byte) (seed : Byte),
      exec (.crcCalc data seed) s = .next { s with output := s.output ++ [.result (crcCalc data seed)] })
  ∧ (∀ s : State, exec .crcRead s = .next { s with output := s.output ++ [.result s.crc] })

/-- Chaining (R74), for every seed; the spec marks the form for a general seed as derived from R73. -/
def Obligations.ChecksumChains : Prop :=
  ∀ (d1 d2 : List Byte) (seed : Byte), crcCalc d2 (crcCalc d1 seed) = crcCalc (d1 ++ d2) seed

/-- The corner cases of R75, which the spec derives from R72 and R73: the empty list gives the seed, zero bytes under a
zero seed give zero whatever their number, and a non-zero seed is not preserved by a zero byte. -/
def Obligations.ChecksumCornerCases : Prop :=
  (∀ seed : Byte, crcCalc [] seed = seed)
  ∧ (∀ n : Nat, crc8 (List.replicate n 0x00#8) = 0x00#8)
  ∧ crcCalc [0x00#8] 0x01#8 = 0x07#8

/-- Linearity (R76(b)), which the spec derives from R71 to R73. -/
def Obligations.ChecksumIsLinear : Prop :=
  (∀ x y : Byte, crcStep (x ^^^ y) = crcStep x ^^^ crcStep y)
  ∧ (∀ c b : Byte, crcUpdate c b = crcUpdate 0x00#8 (c ^^^ b))
  ∧ (∀ x y : Byte, crcUpdate 0x00#8 (x ^^^ y) = crcUpdate 0x00#8 x ^^^ crcUpdate 0x00#8 y)
  ∧ crcUpdate 0x00#8 0x00#8 = 0x00#8

/-- Bijection (R76(c)), which the spec derives from R71 to R73. -/
def Obligations.ChecksumStepsAreBijections : Prop :=
  Function.Bijective crcStep
  ∧ (∀ c : Byte, Function.Bijective (crcUpdate c))
  ∧ (∀ b : Byte, Function.Bijective fun c => crcUpdate c b)

/-- One-byte difference (R76(d)), which the spec derives from R71 to R73: two lists that differ in one position have
different checksums under the same seed. -/
def Obligations.OneChangedByteChangesTheChecksum : Prop :=
  ∀ (before after : List Byte) (x y seed : Byte), x ≠ y →
    crcCalc (before ++ x :: after) seed ≠ crcCalc (before ++ y :: after) seed

/-- R77, R78: clear and load of the stand-alone register. -/
def Obligations.ChecksumRegisterOperations : Prop :=
  (∀ s : State, exec .crcClr s = .next { s with crc := 0x00#8 })
  ∧ (∀ (s : State) (v : Byte), exec (.crcLoad v) s = .next { s with crc := v })

/-- R79: one update folds one byte, and a load followed by updates leaves the calculation over those bytes. -/
def Obligations.ChecksumRegisterFoldsAList : Prop :=
  (∀ (s : State) (b : Byte), exec (.crcUpd b) s = .next { s with crc := crcUpdate s.crc b })
  ∧ (∀ (s : State) (v : Byte) (data : List Byte), s.input = .crcLoad v :: data.map Input.crcUpd →
      runSteps (1 + data.length) s = .next { s with input := [], crc := crcCalc data v })

/-! ### The notations and the reset event -/

/-- `FRAME(p)` (R68, R114) gives way, in the stream, to exactly the `len(p) + 7` bytes of the frame that carries `p`. That the
notation is expanded by a step of the machine is the model's choice: log entry 9. -/
def Obligations.FrameNotationExpands : Prop :=
  ∀ (s : State) (p : List Byte) (lo hi : Byte), p.length ≤ s.cfg.maxLen →
    lo = BitVec.ofNat 8 p.length → hi = BitVec.ofNat 8 (p.length / 256) →
    exec (.frame p) s = .next { s with input :=
      ([0xFA#8, lo, hi, crc8 [0xFA#8, lo, hi], 0xFB#8] ++ p ++ [crc8 p, 0xFE#8]).map Input.byte ++ s.input }

/-- R68's `HDR(n)`: for every 16-bit `n`, within `MAX_LEN` or not, the notation gives way to the five header bytes of a frame
that declares `n`. That a step of the machine expands it is the model's choice: log entry 9. -/
def Obligations.HeaderNotationExpands : Prop :=
  ∀ (s : State) (n : Half) (lo hi : Byte), lo = n.extractLsb' 0 8 → hi = n.extractLsb' 8 8 →
    exec (.hdr n) s = .next { s with input :=
      [0xFA#8, lo, hi, crc8 [0xFA#8, lo, hi], 0xFB#8].map Input.byte ++ s.input }
    ∧ step (s.withInput (.hdr n :: s.input)) = exec (.hdr n) s

/-- Above `MAX_LEN`, where R115 says that `FrameEncode` is not defined, `FRAME(p)` is refused, by the meaning and by the step.
The refusal is the model's form of "not defined": log entry 9. -/
def Obligations.OverlongNotationIsRefused : Prop :=
  ∀ (s : State) (p : List Byte), s.cfg.maxLen < p.length →
    exec (.frame p) s = .refused .frameTooLong ∧ step (s.withInput (.frame p :: s.input)) = .refused .frameTooLong

/-- R147: the reset event, in any state, leaves every register at its reset value, emits nothing, and touches neither the
parameters nor the stream still to come. -/
def Obligations.ResetEventIsSilent : Prop :=
  ∀ s : State,
    exec .reset s = .next { s with
      framer :=
        { position := .waitSync, declaredLength := 0#16, receivedLength := 0#16, headerCrc := 0#8, footerCrc := 0#8,
          runCrc := 0#8, kind := none, sequence := none, valid := false, payload := [] }
      crc := 0x00#8 }
    ∧ step (s.withInput (.reset :: s.input)) = exec .reset s

/-! ### Frames: what each instruction leaves alone -/

/-- Each register of the framer is written by the instructions the table of R13 names for it, by the resets of R84, R109,
R131 and R147, and by no other instruction. -/
def Obligations.RegistersAreWrittenOnlyByTheirInstructions : Prop :=
  ∀ (i : Instr) (s t : State), exec i s = .next t →
    match i with
    | .wsSync | .lhTooLarge _ | .hcBad _ | .dsBad _ | .fcBad _ | .sbOk | .sbBad _ | .reset =>
      t.framer = { Framer.reset with position := t.framer.position }
    | .llStore _ | .lhOk _ => t.framer =
        { s.framer with declaredLength := t.framer.declaredLength, position := t.framer.position }
    | .hcOk _ => t.framer = { s.framer with headerCrc := t.framer.headerCrc, position := t.framer.position }
    | .dsOk | .dsEmpty => t.framer = { s.framer with position := t.framer.position }
    | .fcOk _ => t.framer = { s.framer with footerCrc := t.framer.footerCrc, position := t.framer.position }
    | .gdMore _ | .gdLast _ => t.framer =
        { s.framer with
          receivedLength := t.framer.receivedLength, runCrc := t.framer.runCrc, kind := t.framer.kind,
          sequence := t.framer.sequence, payload := t.framer.payload, position := t.framer.position }
    | .kindRequest | .kindStream | .kindResponse | .kindError | .kindNone _ =>
      t.framer = { s.framer with kind := t.framer.kind }
    | .wsSkip _ | .crcStep _ | .crcUpdate _ _ | .crcCalc _ _ | .crcClr | .crcLoad _ | .crcUpd _ | .crcRead
    | .frame _ | .hdr _ => t.framer = s.framer

/-- The buffer, byte by byte: a payload byte changes the byte at index `received_length` and no other (R99); the resets
leave no byte (R27); every other instruction leaves every byte. -/
def Obligations.BufferBytesChangeOnlyWhereStored : Prop :=
  ∀ (i : Instr) (s t : State) (a : Nat), exec i s = .next t →
    match i with
    | .gdMore b | .gdLast b => Memory.read t.framer.payload a =
        if a = s.framer.receivedLength.toNat then some b else Memory.read s.framer.payload a
    | .wsSync | .lhTooLarge _ | .hcBad _ | .dsBad _ | .fcBad _ | .sbOk | .sbBad _ | .reset =>
      Memory.read t.framer.payload a = none
    | .wsSkip _ | .llStore _ | .lhOk _ | .hcOk _ | .dsOk | .dsEmpty | .fcOk _
    | .kindRequest | .kindStream | .kindResponse | .kindError | .kindNone _
    | .crcStep _ | .crcUpdate _ _ | .crcCalc _ _ | .crcClr | .crcLoad _ | .crcUpd _ | .crcRead
    | .frame _ | .hdr _ => Memory.read t.framer.payload a = Memory.read s.framer.payload a

/-- Outside the framer: no instruction writes a parameter (R149); the stand-alone `crc` is written by its own three
operations and the reset event; the stream still to come is changed by the notations alone; the outputs grow only by the
classes that emit. That a drop or an emission leaves the stand-alone `crc` is the model's reading: log entry 4. -/
def Obligations.RestOfTheMachineIsLeftAlone : Prop :=
  ∀ (i : Instr) (s t : State), exec i s = .next t →
    t.cfg = s.cfg
    ∧ (match i with
      | .crcClr | .crcLoad _ | .crcUpd _ | .reset => True
      | _ => t.crc = s.crc)
    ∧ (match i with
      | .frame _ | .hdr _ => True
      | _ => t.input = s.input)
    ∧ (match i with
      | .lhTooLarge _ | .hcBad _ | .dsBad _ | .fcBad _ | .sbOk | .sbBad _
      | .crcStep _ | .crcUpdate _ _ | .crcCalc _ _ | .crcRead => True
      | _ => t.output = s.output)

/-! ### Invariants -/

/-- The invariant holds right after reset, where the parameters are R7's defaults. That the parameters stand in the state is
the model's choice: log entry 1. -/
def Obligations.InvariantHoldsAtReset : Prop :=
  State.reset.Inv ∧ State.reset.cfg = { capacity := 64, maxLen := 57 }

/-- Every step keeps the invariant, from every state that has it and whatever input is next. -/
def Obligations.InvariantIsKeptByEveryStep : Prop :=
  ∀ s t : State, s.Inv → step s = .next t → t.Inv

/-- In a state that has the invariant the block never stops on an orderly input (`HDR` of any length among them): every store is in bounds (R38, which the
spec derives) and every byte an emission reads is there. -/
def Obligations.OrderlyInputNeverStopsTheBlock : Prop :=
  ∀ s : State, s.Inv → (∀ x ∈ s.input.head?, orderlyInput s.cfg x = true) → ∃ t : State, step s = .next t

/-- R26: every emitted packet is `valid`, complete, within the bound, and carries the two checksums that are right for
it. -/
def Obligations.EmittedPacketsAreGenuine : Prop :=
  ∀ (s t : State) (p : Packet), s.Inv → step s = .next t → t.output = s.output ++ [.packet p] → p.Genuine s.cfg

/-- R34: construction, reset, every drop and every emission leave the framer in the reset state, and "`WaitSync` means the
reset state" is kept by every step from every state that has it. -/
def Obligations.WaitSyncMeansResetState : Prop :=
  State.reset.framer = Framer.reset
  ∧ (∀ s t : State, exec .reset s = .next t → t.framer = Framer.reset)
  ∧ (∀ (s t : State) (b : Byte), presentByte b s = .next t → t.output ≠ s.output → t.framer = Framer.reset)
  ∧ (∀ s t : State, (s.framer.position = .waitSync → s.framer = Framer.reset) → step s = .next t →
      t.framer.position = .waitSync → t.framer = Framer.reset)

/-- The buffer stays in its canonical form: indices strictly rising. The form is the model's: log entry 10. -/
def Obligations.BufferStaysCanonical : Prop :=
  ∀ s t : State, s.framer.payload.wf = true → step s = .next t → t.framer.payload.wf = true

/-! ### Runs over byte streams -/

/-- Runs compose (R121, which the spec derives): the outputs of the second run follow those of the first, their offsets
shifted. -/
def Obligations.RunsCompose : Prop :=
  ∀ (k : Nat) (xs ys : List Byte) (s u v : State) (outs1 outs2 : List (Nat × Output)),
    runBytes k xs s = .next (outs1, u) → runBytes (k + xs.length) ys u = .next (outs2, v) →
    runBytes k (xs ++ ys) s = .next (outs1 ++ outs2, v)

/-- In `WaitSync` (R61, R83) any number of bytes other than `0xFA` changes nothing and produces nothing. -/
def Obligations.GapsAreIgnored : Prop :=
  ∀ (k : Nat) (gap : List Byte) (s : State), s.framer.position = .waitSync → (0xFA#8 : Byte) ∉ gap →
    runBytes k gap s = .next ([], s)

/-- The post-condition of the header phase (R97, which the spec derives from R84 to R92). -/
def Obligations.HeaderPhaseReachesThePayload : Prop :=
  ∀ (s : State) (n : Half), s.framer = Framer.reset → n.toNat ≤ s.cfg.maxLen →
    runBytes 0 (headerBytes n) s = .next ([], { s with framer :=
      { Framer.reset with
        declaredLength := n
        headerCrc := crc8 [0xFA#8, n.extractLsb' 0 8, n.extractLsb' 8 8]
        position := if n = 0 then .getFooterCrc else .getData } })

/-- R113: from the reset state every well-formed frame is accepted: no drop, one emission, at the last byte, of the packet
that carries its payload, and the framer is in the reset state again. -/
def Obligations.WellFormedFrameIsAccepted : Prop :=
  ∀ (s : State) (p : List Byte), s.cfg.ok → s.framer = Framer.reset → p.length ≤ s.cfg.maxLen →
    ∃ u : State, u.framer = Framer.reset ∧ runBytes 0 (frameEncode p) s =
      .next ([(p.length + 6, .packet
          { payload := p, declaredLength := BitVec.ofNat 16 p.length, receivedLength := BitVec.ofNat 16 p.length,
            headerCrc := crc8 [0xFA#8, BitVec.ofNat 8 p.length, BitVec.ofNat 8 (p.length / 256)], footerCrc := crc8 p,
            sequence := p[1]?, kind := p[0]?.bind decodeKind, valid := true })], u)

/-- The stream property (R121, which the spec derives): frames with gaps free of `0xFA` between them give their packets,
in order, and nothing else. That the stand-alone `crc` is as before is the model's reading: log entry 4. -/
def Obligations.StreamOfFramesGivesItsPackets : Prop :=
  ∀ (s : State) (gap : List Byte) (frames : List (List Byte × List Byte)),
    s.cfg.ok → s.framer = Framer.reset → (0xFA#8 : Byte) ∉ gap →
    (∀ pg ∈ frames, pg.1.length ≤ s.cfg.maxLen ∧ (0xFA#8 : Byte) ∉ pg.2) →
    ∃ outs : List (Nat × Output),
      runBytes 0 (gap ++ frames.flatMap fun pg => frameEncode pg.1 ++ pg.2) s =
        .next (outs, { s with output := s.output ++ frames.map fun pg => Output.packet (packetFor pg.1) })
      ∧ outs.map Prod.snd = frames.map fun pg => Output.packet (packetFor pg.1)

/-- What an accepted packet proves of the stream (R143, R122, which the spec derives): the bytes that ended with the
packet's stop byte are the well-formed frame that carries its payload. -/
def Obligations.OnlyWellFormedFramesAreAccepted : Prop :=
  ∀ (s u : State) (bytes : List Byte) (outs : List (Nat × Output)) (k : Nat) (p : Packet),
    s.cfg.ok → s.framer = Framer.reset → runBytes 0 bytes s = .next (outs, u) → (k, .packet p) ∈ outs →
    ∃ before after : List Byte, bytes = before ++ frameEncode p.payload ++ after
      ∧ p.payload.length ≤ s.cfg.maxLen ∧ k = before.length + p.payload.length + 6 ∧ p = packetFor p.payload

/-- Every frame attempt ends (R140(c), which the spec derives): from a state that has the invariant, within
`MAX_LEN + 6` further bytes the framer has been in `WaitSync`. -/
def Obligations.EveryAttemptEndsInTime : Prop :=
  ∀ (s : State) (bytes : List Byte), s.Inv → s.cfg.maxLen + 6 ≤ bytes.length →
    ∃ (k : Nat) (outs : List (Nat × Output)) (u : State), k ≤ s.cfg.maxLen + 6
      ∧ runBytes 0 (bytes.take k) s = .next (outs, u) ∧ u.framer = Framer.reset

/-- Substitution of one byte (R141, which the spec derives): the first terminal outcome after a frame's byte at offset `i`
is replaced, offset by offset. That the stand-alone `crc` is as before is the model's reading: log entry 4. -/
def Obligations.SubstitutedByteIsCaught : Prop :=
  ∀ (s : State) (p : List Byte) (i : Nat) (v : Byte) (f : List Byte),
    s.cfg.ok → s.framer = Framer.reset → p.length ≤ s.cfg.maxLen → f = (frameEncode p).set i v →
    i < p.length + 7 → (frameEncode p)[i]? ≠ some v →
    (∀ l : Nat, (i = 1 ∨ i = 2) → l = f[1]!.toNat + 256 * f[2]!.toNat →
      (s.cfg.maxLen < l → runBytes 0 (f.take 3) s = .next ([(2, .drop .frameTooLarge)], s.emit (.drop .frameTooLarge)))
      ∧ (l ≤ s.cfg.maxLen →
        runBytes 0 (f.take 4) s = .next ([(3, .drop .headerCrcMismatch)], s.emit (.drop .headerCrcMismatch))))
    ∧ (i = 3 → runBytes 0 (f.take 4) s = .next ([(3, .drop .headerCrcMismatch)], s.emit (.drop .headerCrcMismatch)))
    ∧ (i = 4 → runBytes 0 (f.take 5) s = .next ([(4, .drop .dataSyncMismatch)], s.emit (.drop .dataSyncMismatch)))
    ∧ (5 ≤ i → i ≤ p.length + 5 → runBytes 0 (f.take (p.length + 6)) s =
        .next ([(p.length + 5, .drop .dataCrcMismatch)], s.emit (.drop .dataCrcMismatch)))
    ∧ (i = p.length + 6 → runBytes 0 f s =
        .next ([(p.length + 6, .drop .stopByteMismatch)], s.emit (.drop .stopByteMismatch)))

/-- The side condition of R141, which the spec derives: where no byte of the frame after its first is `0xFA`, a frame with
one byte replaced gives no packet at all and leaves the framer in the reset state. -/
def Obligations.SubstitutedFrameGivesNoPacket : Prop :=
  ∀ (s : State) (p : List Byte) (i : Nat) (v : Byte),
    s.cfg.ok → s.framer = Framer.reset → p.length ≤ s.cfg.maxLen →
    i < p.length + 7 → (frameEncode p)[i]? ≠ some v → (0xFA#8 : Byte) ∉ (frameEncode p).drop 1 →
    ∃ (outs : List (Nat × Output)) (u : State), runBytes 0 ((frameEncode p).set i v) s = .next (outs, u)
      ∧ packetsOf outs = [] ∧ u.framer = Framer.reset

/-! ### Encoding -/

/-- Decode and encode agree: an input decodes to `i` exactly when `i` is well formed, the registers select it, and the
input is the one that presents it; with every operand at every value. So each input stands for at most one instruction and
no operand is dropped. Three choices of the model stand in it: `GD.LAST` is selected in `GetData` wherever `GD.MORE` is not,
while its row says `received_length + 1 == declared_length` (log entry 14); a kind row is presented by the input `kindDecode`
(log entry 6); a notation is an input of its own (log entry 9). -/
def Obligations.DecodeAndEncodeAgree : Prop :=
  ∀ (c : Ctx) (x : Input) (i : Instr),
    decode c x = .ok i ↔ wellFormed c.cfg i = true ∧ selectedIn c i = true ∧ x = encode i

/-- The class of a byte is the first row of the model's class table whose byte test and condition hold, and there always is
one. The model's table is R64's but for `GD.LAST`, which has no condition there and `received_length + 1 == declared_length` in
R64: that a `GetData` byte past the declared length has a class at all is the model's reading, log entry 14. -/
def Obligations.ByteClassIsTheFirstMatchingRow : Prop :=
  ∀ (c : Ctx) (b : Byte), tableClass c b = some (decodeByte c b)

/-- A few words written out from the byte tests of R64 and R62. -/
def Obligations.WordsOfTheTableDecode : Prop :=
  decodeByte State.reset.ctx 0b11111010#8 = .wsSync
  ∧ decodeByte State.reset.ctx 0b11111011#8 = .wsSkip 0xFB#8
  ∧ decodeByte { State.reset.ctx with position := .waitDataSync, declaredLength := 1 } 0b11111011#8 = .dsOk
  ∧ decodeByte { State.reset.ctx with position := .waitDataSync } 0b11111011#8 = .dsEmpty
  ∧ decodeByte { State.reset.ctx with position := .getStopByte } 0b11111110#8 = .sbOk
  ∧ decodeKindRow 0b00001011#8 = .kindRequest ∧ decodeKindRow 0b00001100#8 = .kindStream
  ∧ decodeKindRow 0b00010110#8 = .kindResponse ∧ decodeKindRow 0b00100001#8 = .kindError

/-- R39: the length is little-endian on the wire: of two bytes presented from `GetLengthLow` on, the first is the low
one. -/
def Obligations.LengthIsLittleEndian : Prop :=
  ∀ (s : State) (lo hi : Byte), s.framer.position = .getLengthLow → lo.toNat + 256 * hi.toNat ≤ s.cfg.maxLen →
    ∃ u : State, runBytes 0 [lo, hi] s = .next ([], u) ∧ u.framer.position = .getHeaderCrc
      ∧ u.framer.declaredLength.toNat = lo.toNat + 256 * hi.toNat

/-- R16: the numbers of the eight states, which use all eight codes of the 3-bit register. -/
def Obligations.PositionNumbers : Prop :=
  (positionCode .waitSync = 0 ∧ positionCode .getLengthLow = 1 ∧ positionCode .getLengthHigh = 2
    ∧ positionCode .getHeaderCrc = 3 ∧ positionCode .waitDataSync = 4 ∧ positionCode .getData = 5
    ∧ positionCode .getFooterCrc = 6 ∧ positionCode .getStopByte = 7)
  ∧ Function.Bijective positionCode

/-- `FrameEncode` is injective and no frame is a proper prefix of another (R116, which the spec derives). -/
def Obligations.NoFrameIsAPrefixOfAnother : Prop :=
  ∀ p q : List Byte, p.length ≤ 65535 → q.length ≤ 65535 → frameEncode p <+: frameEncode q → p = q

/-- The predicate form of a frame (R122, which the spec derives) is met by exactly the frames of payloads within
`MAX_LEN`. -/
def Obligations.WellFormedFramesAreTheEncodedOnes : Prop :=
  ∀ (cfg : Config) (f : List Byte), cfg.ok →
    (wellFormedFrame cfg f = true ↔ ∃ p : List Byte, p.length ≤ cfg.maxLen ∧ f = frameEncode p)
end

