-- ==== Sys2Proof/Laws/State.lean ====
section
/-! SUPPORT. One lemma per field per update of the framer and of the machine, so that no proof unfolds a record update. -/

namespace Sys2Proof.Machine

section
variable (f : Framer) (v : Position)
@[simp] theorem Framer.goto_position : (f.goto v).position = v := rfl
@[simp] theorem Framer.goto_declaredLength : (f.goto v).declaredLength = f.declaredLength := rfl
@[simp] theorem Framer.goto_receivedLength : (f.goto v).receivedLength = f.receivedLength := rfl
@[simp] theorem Framer.goto_headerCrc : (f.goto v).headerCrc = f.headerCrc := rfl
@[simp] theorem Framer.goto_footerCrc : (f.goto v).footerCrc = f.footerCrc := rfl
@[simp] theorem Framer.goto_runCrc : (f.goto v).runCrc = f.runCrc := rfl
@[simp] theorem Framer.goto_kind : (f.goto v).kind = f.kind := rfl
@[simp] theorem Framer.goto_sequence : (f.goto v).sequence = f.sequence := rfl
@[simp] theorem Framer.goto_valid : (f.goto v).valid = f.valid := rfl
@[simp] theorem Framer.goto_payload : (f.goto v).payload = f.payload := rfl
end

section
variable (f : Framer) (v : Half)
@[simp] theorem Framer.withDeclaredLength_position : (f.withDeclaredLength v).position = f.position := rfl
@[simp] theorem Framer.withDeclaredLength_declaredLength : (f.withDeclaredLength v).declaredLength = v := rfl
@[simp] theorem Framer.withDeclaredLength_receivedLength : (f.withDeclaredLength v).receivedLength = f.receivedLength := rfl
@[simp] theorem Framer.withDeclaredLength_headerCrc : (f.withDeclaredLength v).headerCrc = f.headerCrc := rfl
@[simp] theorem Framer.withDeclaredLength_footerCrc : (f.withDeclaredLength v).footerCrc = f.footerCrc := rfl
@[simp] theorem Framer.withDeclaredLength_runCrc : (f.withDeclaredLength v).runCrc = f.runCrc := rfl
@[simp] theorem Framer.withDeclaredLength_kind : (f.withDeclaredLength v).kind = f.kind := rfl
@[simp] theorem Framer.withDeclaredLength_sequence : (f.withDeclaredLength v).sequence = f.sequence := rfl
@[simp] theorem Framer.withDeclaredLength_valid : (f.withDeclaredLength v).valid = f.valid := rfl
@[simp] theorem Framer.withDeclaredLength_payload : (f.withDeclaredLength v).payload = f.payload := rfl
end

section
variable (f : Framer) (v : Half)
@[simp] theorem Framer.withReceivedLength_position : (f.withReceivedLength v).position = f.position := rfl
@[simp] theorem Framer.withReceivedLength_declaredLength : (f.withReceivedLength v).declaredLength = f.declaredLength := rfl
@[simp] theorem Framer.withReceivedLength_receivedLength : (f.withReceivedLength v).receivedLength = v := rfl
@[simp] theorem Framer.withReceivedLength_headerCrc : (f.withReceivedLength v).headerCrc = f.headerCrc := rfl
@[simp] theorem Framer.withReceivedLength_footerCrc : (f.withReceivedLength v).footerCrc = f.footerCrc := rfl
@[simp] theorem Framer.withReceivedLength_runCrc : (f.withReceivedLength v).runCrc = f.runCrc := rfl
@[simp] theorem Framer.withReceivedLength_kind : (f.withReceivedLength v).kind = f.kind := rfl
@[simp] theorem Framer.withReceivedLength_sequence : (f.withReceivedLength v).sequence = f.sequence := rfl
@[simp] theorem Framer.withReceivedLength_valid : (f.withReceivedLength v).valid = f.valid := rfl
@[simp] theorem Framer.withReceivedLength_payload : (f.withReceivedLength v).payload = f.payload := rfl
end

section
variable (f : Framer) (v : Byte)
@[simp] theorem Framer.withHeaderCrc_position : (f.withHeaderCrc v).position = f.position := rfl
@[simp] theorem Framer.withHeaderCrc_declaredLength : (f.withHeaderCrc v).declaredLength = f.declaredLength := rfl
@[simp] theorem Framer.withHeaderCrc_receivedLength : (f.withHeaderCrc v).receivedLength = f.receivedLength := rfl
@[simp] theorem Framer.withHeaderCrc_headerCrc : (f.withHeaderCrc v).headerCrc = v := rfl
@[simp] theorem Framer.withHeaderCrc_footerCrc : (f.withHeaderCrc v).footerCrc = f.footerCrc := rfl
@[simp] theorem Framer.withHeaderCrc_runCrc : (f.withHeaderCrc v).runCrc = f.runCrc := rfl
@[simp] theorem Framer.withHeaderCrc_kind : (f.withHeaderCrc v).kind = f.kind := rfl
@[simp] theorem Framer.withHeaderCrc_sequence : (f.withHeaderCrc v).sequence = f.sequence := rfl
@[simp] theorem Framer.withHeaderCrc_valid : (f.withHeaderCrc v).valid = f.valid := rfl
@[simp] theorem Framer.withHeaderCrc_payload : (f.withHeaderCrc v).payload = f.payload := rfl
end

section
variable (f : Framer) (v : Byte)
@[simp] theorem Framer.withFooterCrc_position : (f.withFooterCrc v).position = f.position := rfl
@[simp] theorem Framer.withFooterCrc_declaredLength : (f.withFooterCrc v).declaredLength = f.declaredLength := rfl
@[simp] theorem Framer.withFooterCrc_receivedLength : (f.withFooterCrc v).receivedLength = f.receivedLength := rfl
@[simp] theorem Framer.withFooterCrc_headerCrc : (f.withFooterCrc v).headerCrc = f.headerCrc := rfl
@[simp] theorem Framer.withFooterCrc_footerCrc : (f.withFooterCrc v).footerCrc = v := rfl
@[simp] theorem Framer.withFooterCrc_runCrc : (f.withFooterCrc v).runCrc = f.runCrc := rfl
@[simp] theorem Framer.withFooterCrc_kind : (f.withFooterCrc v).kind = f.kind := rfl
@[simp] theorem Framer.withFooterCrc_sequence : (f.withFooterCrc v).sequence = f.sequence := rfl
@[simp] theorem Framer.withFooterCrc_valid : (f.withFooterCrc v).valid = f.valid := rfl
@[simp] theorem Framer.withFooterCrc_payload : (f.withFooterCrc v).payload = f.payload := rfl
end

section
variable (f : Framer) (v : Byte)
@[simp] theorem Framer.withRunCrc_position : (f.withRunCrc v).position = f.position := rfl
@[simp] theorem Framer.withRunCrc_declaredLength : (f.withRunCrc v).declaredLength = f.declaredLength := rfl
@[simp] theorem Framer.withRunCrc_receivedLength : (f.withRunCrc v).receivedLength = f.receivedLength := rfl
@[simp] theorem Framer.withRunCrc_headerCrc : (f.withRunCrc v).headerCrc = f.headerCrc := rfl
@[simp] theorem Framer.withRunCrc_footerCrc : (f.withRunCrc v).footerCrc = f.footerCrc := rfl
@[simp] theorem Framer.withRunCrc_runCrc : (f.withRunCrc v).runCrc = v := rfl
@[simp] theorem Framer.withRunCrc_kind : (f.withRunCrc v).kind = f.kind := rfl
@[simp] theorem Framer.withRunCrc_sequence : (f.withRunCrc v).sequence = f.sequence := rfl
@[simp] theorem Framer.withRunCrc_valid : (f.withRunCrc v).valid = f.valid := rfl
@[simp] theorem Framer.withRunCrc_payload : (f.withRunCrc v).payload = f.payload := rfl
end

section
variable (f : Framer) (v : Option Kind)
@[simp] theorem Framer.withKind_position : (f.withKind v).position = f.position := rfl
@[simp] theorem Framer.withKind_declaredLength : (f.withKind v).declaredLength = f.declaredLength := rfl
@[simp] theorem Framer.withKind_receivedLength : (f.withKind v).receivedLength = f.receivedLength := rfl
@[simp] theorem Framer.withKind_headerCrc : (f.withKind v).headerCrc = f.headerCrc := rfl
@[simp] theorem Framer.withKind_footerCrc : (f.withKind v).footerCrc = f.footerCrc := rfl
@[simp] theorem Framer.withKind_runCrc : (f.withKind v).runCrc = f.runCrc := rfl
@[simp] theorem Framer.withKind_kind : (f.withKind v).kind = v := rfl
@[simp] theorem Framer.withKind_sequence : (f.withKind v).sequence = f.sequence := rfl
@[simp] theorem Framer.withKind_valid : (f.withKind v).valid = f.valid := rfl
@[simp] theorem Framer.withKind_payload : (f.withKind v).payload = f.payload := rfl
end

section
variable (f : Framer) (v : Option Byte)
@[simp] theorem Framer.withSequence_position : (f.withSequence v).position = f.position := rfl
@[simp] theorem Framer.withSequence_declaredLength : (f.withSequence v).declaredLength = f.declaredLength := rfl
@[simp] theorem Framer.withSequence_receivedLength : (f.withSequence v).receivedLength = f.receivedLength := rfl
@[simp] theorem Framer.withSequence_headerCrc : (f.withSequence v).headerCrc = f.headerCrc := rfl
@[simp] theorem Framer.withSequence_footerCrc : (f.withSequence v).footerCrc = f.footerCrc := rfl
@[simp] theorem Framer.withSequence_runCrc : (f.withSequence v).runCrc = f.runCrc := rfl
@[simp] theorem Framer.withSequence_kind : (f.withSequence v).kind = f.kind := rfl
@[simp] theorem Framer.withSequence_sequence : (f.withSequence v).sequence = v := rfl
@[simp] theorem Framer.withSequence_valid : (f.withSequence v).valid = f.valid := rfl
@[simp] theorem Framer.withSequence_payload : (f.withSequence v).payload = f.payload := rfl
end

section
variable (f : Framer) (v : Bool)
@[simp] theorem Framer.withValid_position : (f.withValid v).position = f.position := rfl
@[simp] theorem Framer.withValid_declaredLength : (f.withValid v).declaredLength = f.declaredLength := rfl
@[simp] theorem Framer.withValid_receivedLength : (f.withValid v).receivedLength = f.receivedLength := rfl
@[simp] theorem Framer.withValid_headerCrc : (f.withValid v).headerCrc = f.headerCrc := rfl
@[simp] theorem Framer.withValid_footerCrc : (f.withValid v).footerCrc = f.footerCrc := rfl
@[simp] theorem Framer.withValid_runCrc : (f.withValid v).runCrc = f.runCrc := rfl
@[simp] theorem Framer.withValid_kind : (f.withValid v).kind = f.kind := rfl
@[simp] theorem Framer.withValid_sequence : (f.withValid v).sequence = f.sequence := rfl
@[simp] theorem Framer.withValid_valid : (f.withValid v).valid = v := rfl
@[simp] theorem Framer.withValid_payload : (f.withValid v).payload = f.payload := rfl
end

section
variable (f : Framer) (v : Memory)
@[simp] theorem Framer.withPayload_position : (f.withPayload v).position = f.position := rfl
@[simp] theorem Framer.withPayload_declaredLength : (f.withPayload v).declaredLength = f.declaredLength := rfl
@[simp] theorem Framer.withPayload_receivedLength : (f.withPayload v).receivedLength = f.receivedLength := rfl
@[simp] theorem Framer.withPayload_headerCrc : (f.withPayload v).headerCrc = f.headerCrc := rfl
@[simp] theorem Framer.withPayload_footerCrc : (f.withPayload v).footerCrc = f.footerCrc := rfl
@[simp] theorem Framer.withPayload_runCrc : (f.withPayload v).runCrc = f.runCrc := rfl
@[simp] theorem Framer.withPayload_kind : (f.withPayload v).kind = f.kind := rfl
@[simp] theorem Framer.withPayload_sequence : (f.withPayload v).sequence = f.sequence := rfl
@[simp] theorem Framer.withPayload_valid : (f.withPayload v).valid = f.valid := rfl
@[simp] theorem Framer.withPayload_payload : (f.withPayload v).payload = v := rfl
end

section
variable (s : State) (v : Framer)
@[simp] theorem State.withFramer_cfg : (s.withFramer v).cfg = s.cfg := rfl
@[simp] theorem State.withFramer_framer : (s.withFramer v).framer = v := rfl
@[simp] theorem State.withFramer_crc : (s.withFramer v).crc = s.crc := rfl
@[simp] theorem State.withFramer_input : (s.withFramer v).input = s.input := rfl
@[simp] theorem State.withFramer_output : (s.withFramer v).output = s.output := rfl
end

section
variable (s : State) (v : Byte)
@[simp] theorem State.withCrc_cfg : (s.withCrc v).cfg = s.cfg := rfl
@[simp] theorem State.withCrc_framer : (s.withCrc v).framer = s.framer := rfl
@[simp] theorem State.withCrc_crc : (s.withCrc v).crc = v := rfl
@[simp] theorem State.withCrc_input : (s.withCrc v).input = s.input := rfl
@[simp] theorem State.withCrc_output : (s.withCrc v).output = s.output := rfl
end

section
variable (s : State) (v : List Input)
@[simp] theorem State.withInput_cfg : (s.withInput v).cfg = s.cfg := rfl
@[simp] theorem State.withInput_framer : (s.withInput v).framer = s.framer := rfl
@[simp] theorem State.withInput_crc : (s.withInput v).crc = s.crc := rfl
@[simp] theorem State.withInput_input : (s.withInput v).input = v := rfl
@[simp] theorem State.withInput_output : (s.withInput v).output = s.output := rfl
end

section
variable (s : State) (o : Output)
@[simp] theorem State.emit_cfg : (s.emit o).cfg = s.cfg := rfl
@[simp] theorem State.emit_framer : (s.emit o).framer = s.framer := rfl
@[simp] theorem State.emit_crc : (s.emit o).crc = s.crc := rfl
@[simp] theorem State.emit_input : (s.emit o).input = s.input := rfl
@[simp] theorem State.emit_output : (s.emit o).output = s.output ++ [o] := rfl
end

section
variable (s : State) (bytes : List Byte)
@[simp] theorem State.expand_cfg : (s.expand bytes).cfg = s.cfg := rfl
@[simp] theorem State.expand_framer : (s.expand bytes).framer = s.framer := rfl
@[simp] theorem State.expand_crc : (s.expand bytes).crc = s.crc := rfl
@[simp] theorem State.expand_input : (s.expand bytes).input = bytes.map Input.byte ++ s.input := rfl
@[simp] theorem State.expand_output : (s.expand bytes).output = s.output := rfl
end

section
variable (s : State)
@[simp] theorem State.ctx_cfg : s.ctx.cfg = s.cfg := rfl
@[simp] theorem State.ctx_position : s.ctx.position = s.framer.position := rfl
@[simp] theorem State.ctx_declaredLength : s.ctx.declaredLength = s.framer.declaredLength := rfl
@[simp] theorem State.ctx_receivedLength : s.ctx.receivedLength = s.framer.receivedLength := rfl
@[simp] theorem State.ctx_runCrc : s.ctx.runCrc = s.framer.runCrc := rfl
/-- Putting back the input that is there changes nothing. -/
@[simp] theorem State.withInput_input_self : s.withInput s.input = s := rfl
/-- Two replacements of the input are the last one. -/
@[simp] theorem State.withInput_withInput (xs ys : List Input) : (s.withInput xs).withInput ys = s.withInput ys := rfl
end

@[simp] theorem Framer.reset_position : Framer.reset.position = .waitSync := rfl
@[simp] theorem Framer.reset_declaredLength : Framer.reset.declaredLength = 0 := rfl
@[simp] theorem Framer.reset_receivedLength : Framer.reset.receivedLength = 0 := rfl
@[simp] theorem Framer.reset_headerCrc : Framer.reset.headerCrc = 0 := rfl
@[simp] theorem Framer.reset_footerCrc : Framer.reset.footerCrc = 0 := rfl
@[simp] theorem Framer.reset_runCrc : Framer.reset.runCrc = 0 := rfl
@[simp] theorem Framer.reset_kind : Framer.reset.kind = none := rfl
@[simp] theorem Framer.reset_sequence : Framer.reset.sequence = none := rfl
@[simp] theorem Framer.reset_valid : Framer.reset.valid = false := rfl
@[simp] theorem Framer.reset_payload : Framer.reset.payload = [] := rfl

end Sys2Proof.Machine
end

