-- ==== Sys2Proof/Laws/Decode.lean ====
section
/-! SUPPORT. The class of an input byte in each position, over the registers of the machine, so that no proof unfolds the
decoder. -/

namespace Sys2Proof.Machine

section
variable {s : State} {b : Byte}

theorem decodeByte_waitSync (h : s.framer.position = .waitSync) :
    decodeByte s.ctx b = if b = 0xFA#8 then .wsSync else .wsSkip b := by
  rw [decodeByte, State.ctx_position, h]; rfl

theorem decodeByte_getLengthLow (h : s.framer.position = .getLengthLow) : decodeByte s.ctx b = .llStore b := by
  rw [decodeByte, State.ctx_position, h]

theorem decodeByte_getLengthHigh (h : s.framer.position = .getLengthHigh) :
    decodeByte s.ctx b =
      if (assembleLength b s.framer.declaredLength).toNat ≤ s.cfg.maxLen then .lhOk b else .lhTooLarge b := by
  rw [decodeByte, State.ctx_position, h]
  by_cases hl : (assembleLength b s.framer.declaredLength).toNat ≤ s.cfg.maxLen <;> simp [lengthFits, hl]

theorem decodeByte_getHeaderCrc (h : s.framer.position = .getHeaderCrc) :
    decodeByte s.ctx b = if b = headerCrcOf s.framer.declaredLength then .hcOk b else .hcBad b := by
  rw [decodeByte, State.ctx_position, h]
  by_cases hb : b = headerCrcOf s.framer.declaredLength <;> simp [headerMatches, hb]

theorem decodeByte_waitDataSync (h : s.framer.position = .waitDataSync) :
    decodeByte s.ctx b =
      if b = 0xFB#8 then (if s.framer.declaredLength = 0 then .dsEmpty else .dsOk) else .dsBad b := by
  rw [decodeByte, State.ctx_position, h]; rfl

theorem decodeByte_getData (h : s.framer.position = .getData) :
    decodeByte s.ctx b =
      if s.framer.receivedLength.toNat + 1 < s.framer.declaredLength.toNat then .gdMore b else .gdLast b := by
  rw [decodeByte, State.ctx_position, h]
  by_cases hl : s.framer.receivedLength.toNat + 1 < s.framer.declaredLength.toNat <;> simp [moreToCome, hl]

theorem decodeByte_getFooterCrc (h : s.framer.position = .getFooterCrc) :
    decodeByte s.ctx b = if b = s.framer.runCrc then .fcOk b else .fcBad b := by
  rw [decodeByte, State.ctx_position, h]; rfl

theorem decodeByte_getStopByte (h : s.framer.position = .getStopByte) :
    decodeByte s.ctx b = if b = 0xFE#8 then .sbOk else .sbBad b := by
  rw [decodeByte, State.ctx_position, h]; rfl

end

end Sys2Proof.Machine
end

