-- ==== Sys2Proof/Laws/Memory.lean ====
section
/-! SUPPORT. The laws of the payload buffer: read after write, the canonical form, and what the buffer of a frame in
progress looks like. -/

namespace Sys2Proof.Machine

@[simp] theorem Memory.read_nil (a : Nat) : Memory.read [] a = none := rfl

theorem Memory.read_write_same (m : Memory) (a : Nat) (v : Byte) : (m.write a v).read a = some v := by
  induction m with
  | nil => simp [Memory.write, Memory.read]
  | cons e rest ih =>
    obtain ⟨k, w⟩ := e
    rcases lt_trichotomy a k with h | h | h
    · simp [Memory.write, Memory.read, h]
    · simp [Memory.write, Memory.read, h]
    · simp [Memory.write, Memory.read, Nat.lt_asymm h, Nat.ne_of_gt h, ih]

theorem Memory.read_write_other (m : Memory) {a b : Nat} (v : Byte) (h : b ≠ a) :
    (m.write a v).read b = m.read b := by
  induction m with
  | nil => simp [Memory.write, Memory.read, h, Memory.unlisted]
  | cons e rest ih =>
    obtain ⟨k, w⟩ := e
    rcases lt_trichotomy a k with hk | hk | hk
    · simp [Memory.write, Memory.read, hk, h]
    · subst hk
      simp [Memory.write, Memory.read, h]
    · simp only [Memory.write, Nat.lt_asymm hk, Nat.ne_of_gt hk, if_false, Memory.read, ih]

/-- A store puts nothing before the entries that were there and its own. -/
theorem Memory.wf_cons_write (m : Memory) {k a : Nat} {w v : Byte} (hk : k < a)
    (h : Memory.wf ((k, w) :: m) = true) (hw : (m.write a v).wf = true) :
    Memory.wf ((k, w) :: m.write a v) = true := by
  cases m with
  | nil => simp [Memory.write, Memory.wf, hk]
  | cons e rest =>
    obtain ⟨j, x⟩ := e
    have hj : k < j := by simpa using (Bool.and_eq_true_iff.mp h).1
    rcases lt_trichotomy a j with ha | ha | ha
    · simp_all [Memory.write, Memory.wf]
    · simp_all [Memory.write, Memory.wf]
    · simp_all [Memory.write, Memory.wf, Nat.lt_asymm ha, Nat.ne_of_gt ha]

/-- Every store keeps the canonical form. -/
theorem Memory.wf_write (m : Memory) (a : Nat) (v : Byte) (h : m.wf = true) : (m.write a v).wf = true := by
  induction m with
  | nil => rfl
  | cons e rest ih =>
    obtain ⟨k, w⟩ := e
    have hr : Memory.wf rest = true := by
      cases rest with
      | nil => rfl
      | cons e' r => exact (Bool.and_eq_true_iff.mp h).2
    rcases lt_trichotomy a k with hk | hk | hk
    · simpa [Memory.write, hk, Memory.wf] using h
    · subst hk
      have he : Memory.write ((a, w) :: rest) a v = (a, v) :: rest := by simp [Memory.write]
      rw [he]
      cases rest with
      | nil => rfl
      | cons e' r => exact h
    · have he : Memory.write ((k, w) :: rest) a v = (k, w) :: Memory.write rest a v := by
        simp [Memory.write, Nat.lt_asymm hk, Nat.ne_of_gt hk]
      rw [he]
      exact Memory.wf_cons_write rest hk h (ih hr)

/-- The buffer after reset is in canonical form. -/
theorem reset_memory_wf : State.reset.framer.payload.wf = true := rfl

/-- A store above every index held goes to the end. -/
theorem Memory.write_eq_append (m : Memory) (a : Nat) (v : Byte) (h : ∀ e ∈ m, e.1 < a) :
    m.write a v = m ++ [(a, v)] := by
  induction m with
  | nil => rfl
  | cons e rest ih =>
    obtain ⟨k, w⟩ := e
    have hk : k < a := h _ (List.mem_cons_self ..)
    simp [Memory.write, Nat.lt_asymm hk, Nat.ne_of_gt hk, ih fun e he => h e (List.mem_cons_of_mem _ he)]

/-- A buffer that holds the indices `start .. start + n - 1` reads, at each of them, as the list of its bytes. -/
theorem Memory.read_of_range' (m : Memory) (start i : Nat) (h : m.map Prod.fst = List.range' start m.length)
    (hi : i < m.length) : m.read (start + i) = (m.map Prod.snd)[i]? := by
  induction m generalizing start i with
  | nil => simp at hi
  | cons e rest ih =>
    obtain ⟨k, w⟩ := e
    simp only [List.map_cons, List.length_cons, List.range'_succ, List.cons.injEq] at h
    obtain ⟨hk, hrest⟩ := h
    subst hk
    cases i with
    | zero => simp [Memory.read]
    | succ i =>
      have hne : k + (i + 1) ≠ k := by omega
      have := ih (k + 1) i hrest (by simpa using hi)
      simp only [Memory.read, if_neg hne, List.map_cons, List.getElem?_cons_succ]
      rw [← this]
      congr 1
      omega

end Sys2Proof.Machine
end

