-- ==== Sys2Proof/Laws/Ops.lean ====
section
/-! SUPPORT. What each shared operation can do, said once; the provers cite these instead of unfolding the operations. -/

namespace Sys2Proof.Machine

/-! ### Buffer accesses -/

theorem memRead_eq_ok {f : Framer} {a : Nat} {v : Byte} :
    memRead f a = .ok v ↔ a < f.receivedLength.toNat ∧ f.payload.read a = some v := by
  unfold memRead
  split
  · split <;> simp_all
  · simp_all

theorem memWrite_eq_ok {cfg : Config} {f g : Framer} {a : Nat} {v : Byte} :
    memWrite cfg f a v = .ok g ↔ a < cfg.capacity ∧ g = f.withPayload (f.payload.write a v) := by
  unfold memWrite
  split <;> simp_all [eq_comm]

/-- What a range of reads answers, byte by byte. -/
theorem memReadRange_eq_ok {f : Framer} {start count : Nat} {bs : List Byte} :
    memReadRange f start count = .ok bs ↔
      bs.length = count ∧ ∀ i (h : i < bs.length), memRead f (start + i) = .ok bs[i] := by
  induction count generalizing start bs with
  | zero =>
    constructor
    · intro h
      cases h
      exact ⟨rfl, fun i h => absurd h (Nat.not_lt_zero i)⟩
    · rintro ⟨h, -⟩
      rw [List.length_eq_zero_iff.mp h]
      rfl
  | succ n ih =>
    constructor
    · intro h
      simp only [memReadRange] at h
      split at h
      · cases h
      · rename_i v hv
        split at h
        · cases h
        · rename_i vs hvs
          cases h
          obtain ⟨hl, hb⟩ := ih.mp hvs
          refine ⟨by simp [hl], fun i hi => ?_⟩
          cases i with
          | zero => simpa using hv
          | succ i =>
            have := hb i (by simpa using hi)
            rw [show start + 1 + i = start + (i + 1) by omega] at this
            simpa using this
    · rintro ⟨hl, hb⟩
      cases bs with
      | nil => simp at hl
      | cons v vs =>
        have h0 := hb 0 (by simp)
        have hr : memReadRange f (start + 1) n = .ok vs := by
          refine ih.mpr ⟨by simpa using hl, fun i hi => ?_⟩
          have := hb (i + 1) (by simpa using hi)
          rw [show start + 1 + i = start + (i + 1) by omega]
          simpa using this
        simp only [Nat.add_zero, List.getElem_cons_zero] at h0
        simp only [memReadRange, h0, hr]

/-- The flag does not matter to a read. -/
theorem memRead_withValid (f : Framer) (v : Bool) (a : Nat) : memRead (f.withValid v) a = memRead f a := rfl

theorem memReadRange_withValid (f : Framer) (v : Bool) (start n : Nat) :
    memReadRange (f.withValid v) start n = memReadRange f start n := by
  induction n generalizing start with
  | zero => rfl
  | succ n ih => simp only [memReadRange, ih, memRead_withValid]

/-! ### The framer's parts of a payload step -/

theorem Framer.noteKind_eq (f : Framer) (b : Byte) :
    f.noteKind b = f.withKind (if f.receivedLength = 1 then decodeKind b else f.kind) := by
  unfold Framer.noteKind
  split <;> rfl

theorem Framer.noteSequence_eq (f : Framer) (b : Byte) :
    f.noteSequence b = f.withSequence (if f.receivedLength = 2 then some b else f.sequence) := by
  unfold Framer.noteSequence
  split <;> rfl

theorem Framer.endPayload_eq (f : Framer) :
    f.endPayload = f.goto (if f.receivedLength = f.declaredLength then .getFooterCrc else f.position) := by
  unfold Framer.endPayload
  split <;> rfl

/-- What a payload byte does when it does anything: the bound held, and the framer is this one. -/
theorem collectByte_next {b : Byte} {s t : State} :
    collectByte b s = .next t ↔ s.framer.receivedLength.toNat < s.cfg.capacity ∧
      t = s.withFramer
        { position :=
            if s.framer.receivedLength + 1 = s.framer.declaredLength then .getFooterCrc else s.framer.position
          declaredLength := s.framer.declaredLength
          receivedLength := s.framer.receivedLength + 1
          headerCrc := s.framer.headerCrc
          footerCrc := s.framer.footerCrc
          runCrc := crcUpdate s.framer.runCrc b
          kind := if s.framer.receivedLength + 1 = 1 then decodeKind b else s.framer.kind
          sequence := if s.framer.receivedLength + 1 = 2 then some b else s.framer.sequence
          valid := s.framer.valid
          payload := s.framer.payload.write s.framer.receivedLength.toNat b } := by
  unfold collectByte memWrite
  by_cases h : s.framer.receivedLength.toNat < s.cfg.capacity
  · simp only [h, if_true, Framer.noteKind_eq, Framer.noteSequence_eq, Framer.endPayload_eq, Framer.countAndFold,
      true_and, Host.Outcome.next.injEq]
    exact eq_comm
  · simp [h]

/-- What the accepting end of a frame does when it does anything: every byte was there, and one packet went out. -/
theorem acceptPacket_next {s t : State} :
    acceptPacket s = .next t ↔ ∃ bs, memReadRange s.framer 0 s.framer.receivedLength.toNat = .ok bs ∧
      t = (s.emit (.packet (packetOf s.framer.markValid bs))).withFramer Framer.reset := by
  have hr : memReadRange s.framer.markValid 0 s.framer.receivedLength.toNat
      = memReadRange s.framer 0 s.framer.receivedLength.toNat := memReadRange_withValid ..
  unfold acceptPacket
  rw [hr]
  cases memReadRange s.framer 0 s.framer.receivedLength.toNat <;> simp [eq_comm]

/-! ### Drops -/

@[simp] theorem raiseDrop_cfg (c : DropCause) (s : State) : (raiseDrop c s).cfg = s.cfg := rfl
@[simp] theorem raiseDrop_framer (c : DropCause) (s : State) : (raiseDrop c s).framer = Framer.reset := rfl
@[simp] theorem raiseDrop_crc (c : DropCause) (s : State) : (raiseDrop c s).crc = s.crc := rfl
@[simp] theorem raiseDrop_input (c : DropCause) (s : State) : (raiseDrop c s).input = s.input := rfl
@[simp] theorem raiseDrop_output (c : DropCause) (s : State) : (raiseDrop c s).output = s.output ++ [.drop c] := rfl

/-! ### The step -/

theorem fetch_eq_some {s u : State} {x : Input} :
    fetch s = some (x, u) ↔ ∃ rest, s.input = x :: rest ∧ u = s.withInput rest := by
  unfold fetch
  cases s.input with
  | nil => simp
  | cons y rest =>
    simp only [Option.some.injEq, Prod.mk.injEq, List.cons.injEq]
    exact ⟨fun ⟨h1, h2⟩ => ⟨rest, ⟨h1, rfl⟩, h2.symm⟩, fun ⟨r, ⟨h1, h2⟩, h3⟩ => ⟨h1, h2 ▸ h3.symm⟩⟩

/-- A rejected input never gives a next state. -/
theorem rejected_ne_next (r : Reject) (t : State) : rejected r ≠ .next t := by cases r <;> simp [rejected]

/-- Everything a step can do when it answers a next state: wait, or run the decoded instruction. -/
theorem step_cases {s t : State} (h : step s = .next t) :
    (s.input = [] ∧ t = s) ∨
      ∃ x rest i, s.input = x :: rest ∧ decode (s.withInput rest).ctx x = .ok i ∧ exec i (s.withInput rest) = .next t := by
  unfold step at h
  split at h
  · rename_i hf
    have hs : s.input = [] := by
      unfold fetch at hf
      split at hf
      · assumption
      · cases hf
    exact .inl ⟨hs, by simpa using h.symm⟩
  · rename_i x u hf
    obtain ⟨rest, hi, rfl⟩ := fetch_eq_some.mp hf
    split at h
    · rename_i i hd
      exact .inr ⟨x, rest, i, hi, hd, h⟩
    · exact absurd h (rejected_ne_next _ _)

/-- A presented byte is decoded under the registers as they stand, and its class is executed. -/
theorem presentByte_eq (b : Byte) (s : State) : presentByte b s = exec (decodeByte s.ctx b) s := rfl

end Sys2Proof.Machine
end

