-- ==== Sys2Proof/Laws/PerInstr.lean ====
section
/-! SUPPORT. A statement made per instruction: an instruction that an input byte presents is the class of one numbered
row of the class table, and its byte passes that row's byte test (R64). -/

namespace Sys2Proof.Laws

set_option Elab.async false

/-- Row `k` of the class table names the class that `i` is, and the byte that presents `i` meets the row's byte test. -/
def RowOfClass.Statement (i : Instr) : Prop :=
  ∀ (cfg : Config) (b : Byte), wellFormed cfg i = true → encode i = .byte b →
    ∃ (k : Nat) (r : ClassRow), classRows[k]? = some r ∧ r.make b = i ∧ b &&& r.mask = r.pattern

/-- A row with an open byte test names the class with its byte. -/
theorem RowOfClass.of_open_row (i : Byte → Instr) (b : Byte) (k : Nat) (r : ClassRow) (hk : classRows[k]? = some r)
    (hmake : r.make = i) (hmask : r.mask = 0) (hpattern : r.pattern = 0) (henc : ∀ x, encode (i x) = .byte x) :
    RowOfClass.Statement (i b) := by
  intro _ b' _ h
  have hb : b = b' := by simpa [henc] using h
  subst hb
  exact ⟨k, r, hk, by rw [hmake], by simp [hmask, hpattern]⟩

/-- An instruction that no byte presents has no row. -/
theorem RowOfClass.of_no_byte (i : Instr) (h : ∀ b, encode i ≠ .byte b) : RowOfClass.Statement i :=
  fun _ b _ hb => absurd hb (h b)

theorem RowOfClass.wsSync : RowOfClass.Statement .wsSync := by
  rintro _ b - h
  cases h
  exact ⟨0, _, rfl, rfl, rfl⟩

theorem RowOfClass.wsSkip (b : Byte) : RowOfClass.Statement (.wsSkip b) :=
  RowOfClass.of_open_row .wsSkip b 1 _ rfl rfl rfl rfl fun _ => rfl

theorem RowOfClass.llStore (b : Byte) : RowOfClass.Statement (.llStore b) :=
  RowOfClass.of_open_row .llStore b 2 _ rfl rfl rfl rfl fun _ => rfl

theorem RowOfClass.lhOk (b : Byte) : RowOfClass.Statement (.lhOk b) :=
  RowOfClass.of_open_row .lhOk b 3 _ rfl rfl rfl rfl fun _ => rfl

theorem RowOfClass.lhTooLarge (b : Byte) : RowOfClass.Statement (.lhTooLarge b) :=
  RowOfClass.of_open_row .lhTooLarge b 4 _ rfl rfl rfl rfl fun _ => rfl

theorem RowOfClass.hcOk (b : Byte) : RowOfClass.Statement (.hcOk b) :=
  RowOfClass.of_open_row .hcOk b 5 _ rfl rfl rfl rfl fun _ => rfl

theorem RowOfClass.hcBad (b : Byte) : RowOfClass.Statement (.hcBad b) :=
  RowOfClass.of_open_row .hcBad b 6 _ rfl rfl rfl rfl fun _ => rfl

theorem RowOfClass.dsOk : RowOfClass.Statement .dsOk := by
  rintro _ b - h
  cases h
  exact ⟨7, _, rfl, rfl, rfl⟩

theorem RowOfClass.dsEmpty : RowOfClass.Statement .dsEmpty := by
  rintro _ b - h
  cases h
  exact ⟨8, _, rfl, rfl, rfl⟩

theorem RowOfClass.dsBad (b : Byte) : RowOfClass.Statement (.dsBad b) :=
  RowOfClass.of_open_row .dsBad b 9 _ rfl rfl rfl rfl fun _ => rfl

theorem RowOfClass.gdMore (b : Byte) : RowOfClass.Statement (.gdMore b) :=
  RowOfClass.of_open_row .gdMore b 10 _ rfl rfl rfl rfl fun _ => rfl

theorem RowOfClass.gdLast (b : Byte) : RowOfClass.Statement (.gdLast b) :=
  RowOfClass.of_open_row .gdLast b 11 _ rfl rfl rfl rfl fun _ => rfl

theorem RowOfClass.fcOk (b : Byte) : RowOfClass.Statement (.fcOk b) :=
  RowOfClass.of_open_row .fcOk b 12 _ rfl rfl rfl rfl fun _ => rfl

theorem RowOfClass.fcBad (b : Byte) : RowOfClass.Statement (.fcBad b) :=
  RowOfClass.of_open_row .fcBad b 13 _ rfl rfl rfl rfl fun _ => rfl

theorem RowOfClass.sbOk : RowOfClass.Statement .sbOk := by
  rintro _ b - h
  cases h
  exact ⟨14, _, rfl, rfl, rfl⟩

theorem RowOfClass.sbBad (b : Byte) : RowOfClass.Statement (.sbBad b) :=
  RowOfClass.of_open_row .sbBad b 15 _ rfl rfl rfl rfl fun _ => rfl

theorem RowOfClass.crcStep (c : Byte) : RowOfClass.Statement (.crcStep c) := RowOfClass.of_no_byte _ (by simp [encode])

theorem RowOfClass.crcUpdate (c b : Byte) : RowOfClass.Statement (.crcUpdate c b) := RowOfClass.of_no_byte _ (by simp [encode])

theorem RowOfClass.crcCalc (data : List Byte) (seed : Byte) : RowOfClass.Statement (.crcCalc data seed) := RowOfClass.of_no_byte _ (by simp [encode])

theorem RowOfClass.crcClr : RowOfClass.Statement .crcClr := RowOfClass.of_no_byte _ (by simp [encode])

theorem RowOfClass.crcLoad (v : Byte) : RowOfClass.Statement (.crcLoad v) := RowOfClass.of_no_byte _ (by simp [encode])

theorem RowOfClass.crcUpd (b : Byte) : RowOfClass.Statement (.crcUpd b) := RowOfClass.of_no_byte _ (by simp [encode])

theorem RowOfClass.crcRead : RowOfClass.Statement .crcRead := RowOfClass.of_no_byte _ (by simp [encode])

theorem RowOfClass.kindRequest : RowOfClass.Statement .kindRequest := RowOfClass.of_no_byte _ (by simp [encode])

theorem RowOfClass.kindStream : RowOfClass.Statement .kindStream := RowOfClass.of_no_byte _ (by simp [encode])

theorem RowOfClass.kindResponse : RowOfClass.Statement .kindResponse := RowOfClass.of_no_byte _ (by simp [encode])

theorem RowOfClass.kindError : RowOfClass.Statement .kindError := RowOfClass.of_no_byte _ (by simp [encode])

theorem RowOfClass.kindNone (v : Byte) : RowOfClass.Statement (.kindNone v) := RowOfClass.of_no_byte _ (by simp [encode])

theorem RowOfClass.reset : RowOfClass.Statement .reset := RowOfClass.of_no_byte _ (by simp [encode])

theorem RowOfClass.frame (p : List Byte) : RowOfClass.Statement (.frame p) := RowOfClass.of_no_byte _ (by simp [encode])

theorem RowOfClass.hdr (n : Half) : RowOfClass.Statement (.hdr n) := RowOfClass.of_no_byte _ (by simp [encode])

end Sys2Proof.Laws
end

