-- ==== Sys2Proof/Tests/Slice0.lean ====
section
/-! SUPPORT. Small tests: ill-formed terms that `wellFormed` refuses, words written out from the encodings of
spec/30_encoding.md, one or two single steps per instruction with the values of spec/95_test_vectors.md (the vector is named in
the comment), and for each statement with hypotheses a state that meets them. -/

namespace Sys2Proof.Tests

set_option Elab.async false

open Sys2Proof.Machine

/-! ### Helpers -/

/-- A state in position `p` with `n` declared and `bytes` collected, as the framer has it there; default parameters. -/
def inState (p : Position) (n : Half) (bytes : List Byte) : State :=
  { State.reset with framer :=
    { position := p
      declaredLength := n
      receivedLength := BitVec.ofNat 16 bytes.length
      headerCrc := headerCrcOf n
      footerCrc := if p = .getStopByte then crc8 bytes else 0
      runCrc := crc8 bytes
      kind := bytes[0]?.bind decodeKind
      sequence := bytes[1]?
      valid := false
      payload := (List.range bytes.length).zip bytes } }

/-- A state in position `p` of the length phase. -/
def inHeader (p : Position) (n : Half) : State :=
  { State.reset with framer := { Framer.reset with position := p, declaredLength := n } }

/-- What an outcome goes on with, if it goes on. -/
def answer {α : Type} : Host.Outcome α Fault Refusal → Option α
  | .next t => some t
  | .fault _ => none
  | .refused _ => none

theorem eq_next {α : Type} {o : Host.Outcome α Fault Refusal} {t : α} (h : answer o = some t) : o = .next t := by
  cases o with
  | next u => exact congrArg Host.Outcome.next (Option.some.inj h)
  | fault _ => cases h
  | refused _ => cases h

/-- The state after one step on one input, if there is one. -/
def after (s : State) (x : Input) : Option State := answer (step (s.withInput [x]))

/-- Whether an instruction answers a next state. -/
def completes (i : Instr) (s : State) : Bool := (answer (exec i s)).isSome

/-- The tagged outputs of a run, if it ends. -/
def outputsOf (bytes : List Byte) (s : State) : Option (List (Nat × Output)) := (answer (runBytes 0 bytes s)).map Prod.fst

/-- The payload of program P1's answer: `16 01 00 05`. -/
def sample : List Byte := [0x16#8, 0x01#8, 0x00#8, 0x05#8]

/-! ### Ill-formed terms, one for each check of `wellFormed` -/

theorem test_ill_formed_wsSkip : wellFormed Config.standard (.wsSkip 0xFA#8) = false := by decide +kernel
theorem test_ill_formed_dsBad : wellFormed Config.standard (.dsBad 0xFB#8) = false := by decide +kernel
theorem test_ill_formed_sbBad : wellFormed Config.standard (.sbBad 0xFE#8) = false := by decide +kernel
theorem test_ill_formed_kindNone : wellFormed Config.standard (.kindNone 0x21#8) = false := by decide +kernel
theorem test_ill_formed_frame : wellFormed Config.standard (.frame (List.replicate 58 0#8)) = false :=
  by decide +kernel

/-! ### Words written out from the byte tests of R64 and R62, one for every constructor -/

theorem test_decode_wsSync : decodeByte (inHeader .waitSync 0).ctx 0b11111010#8 = .wsSync := by decide +kernel
theorem test_decode_wsSkip : decodeByte (inHeader .waitSync 0).ctx 0b11111011#8 = .wsSkip 0xFB#8 := by decide +kernel
theorem test_decode_llStore : decodeByte (inHeader .getLengthLow 0).ctx 0b11111010#8 = .llStore 0xFA#8 :=
  by decide +kernel
theorem test_decode_lhOk : decodeByte (inHeader .getLengthHigh 57).ctx 0b00000000#8 = .lhOk 0x00#8 :=
  by decide +kernel
theorem test_decode_lhTooLarge : decodeByte (inHeader .getLengthHigh 58).ctx 0b00000000#8 = .lhTooLarge 0x00#8 :=
  by decide +kernel
theorem test_decode_hcOk : decodeByte (inHeader .getHeaderCrc 8).ctx 0b01000011#8 = .hcOk 0x43#8 := by decide +kernel
theorem test_decode_hcBad : decodeByte (inHeader .getHeaderCrc 8).ctx 0b01000100#8 = .hcBad 0x44#8 :=
  by decide +kernel
theorem test_decode_dsOk : decodeByte (inState .waitDataSync 1 []).ctx 0b11111011#8 = .dsOk := by decide +kernel
theorem test_decode_dsEmpty : decodeByte (inState .waitDataSync 0 []).ctx 0b11111011#8 = .dsEmpty := by decide +kernel
theorem test_decode_dsBad : decodeByte (inState .waitDataSync 1 []).ctx 0b11111010#8 = .dsBad 0xFA#8 :=
  by decide +kernel
theorem test_decode_gdMore : decodeByte (inState .getData 3 [0#8]).ctx 0b11111110#8 = .gdMore 0xFE#8 :=
  by decide +kernel
theorem test_decode_gdLast : decodeByte (inState .getData 2 [0#8]).ctx 0b11111010#8 = .gdLast 0xFA#8 :=
  by decide +kernel
theorem test_decode_fcOk : decodeByte (inState .getFooterCrc 4 sample).ctx 0b01100011#8 = .fcOk 0x63#8 :=
  by decide +kernel
theorem test_decode_fcBad : decodeByte (inState .getFooterCrc 4 sample).ctx 0b11111110#8 = .fcBad 0xFE#8 :=
  by decide +kernel
theorem test_decode_sbOk : decodeByte (inState .getStopByte 4 sample).ctx 0b11111110#8 = .sbOk := by decide +kernel
theorem test_decode_sbBad : decodeByte (inState .getStopByte 4 sample).ctx 0b11111010#8 = .sbBad 0xFA#8 :=
  by decide +kernel
theorem test_decode_kinds :
    [0b00001011#8, 0b00001100#8, 0b00010110#8, 0b00100001#8, 0b00001010#8].map decodeKindRow =
      [.kindRequest, .kindStream, .kindResponse, .kindError, .kindNone 0x0A#8] := by decide +kernel

/-- The rows that no byte presents decode from their names (R67, R147, R68). -/
theorem test_decode_named (c : Ctx) (hc : c.cfg = Config.standard) :
    decode c (.crcStep 1) = .ok (.crcStep 1) ∧ decode c (.crcUpdate 1 2) = .ok (.crcUpdate 1 2)
      ∧ decode c (.crcCalc [1, 2] 3) = .ok (.crcCalc [1, 2] 3) ∧ decode c .crcClr = .ok .crcClr
      ∧ decode c (.crcLoad 1) = .ok (.crcLoad 1) ∧ decode c (.crcUpd 1) = .ok (.crcUpd 1)
      ∧ decode c .crcRead = .ok .crcRead ∧ decode c .reset = .ok .reset
      ∧ decode c (.frame [1, 2]) = .ok (.frame [1, 2]) ∧ decode c (.hdr 58) = .ok (.hdr 58) := by
  simp [decode, hc, Config.standard, overhead]

/-- What the decoder rejects, by name. -/
theorem test_decode_rejects :
    (match decode State.reset.ctx .kindDecode with | .ok _ => none | .error r => some r) = some Reject.noPayloadByte
      ∧ (match decode State.reset.ctx (.frame (List.replicate 58 0)) with | .ok _ => none | .error r => some r)
        = some Reject.frameTooLong
      ∧ (match decode State.reset.ctx (.byteInStep 0) with | .ok _ => none | .error r => some r)
        = some Reject.byteInStep := by decide +kernel

/-- The bare words of spec/opcode_table.json (log entry 8). -/
theorem test_table_words :
    [0xFA, 0x00, 0xFB, 0xFE, 0x0B, 0x0C, 0x16, 0x21].map (decodeTableWord 8) =
      [some .wsSync, some (.wsSkip 0x00#8), some .dsOk, some .sbOk, some .kindRequest, some .kindStream,
        some .kindResponse, some .kindError] := by decide +kernel

/-- What the encodings of the three rows with bytes of their own are: V-E2, V-H22, R62. -/
theorem test_encode_bytes :
    encodeBytes (.frame [0x16#8]) = [0xFA#8, 0x01#8, 0x00#8, 0xFE#8, 0xFB#8, 0x16#8, 0x62#8, 0xFE#8]
      ∧ encodeBytes (.hdr 8) = [0xFA#8, 0x08#8, 0x00#8, 0x43#8, 0xFB#8]
      ∧ encodeBytes .kindStream = [0x0C#8] ∧ encodeBytes .sbOk = [0xFE#8] := by decide +kernel

/-- A word placed by `withFetchWord` is what the next step runs. -/
theorem test_fetch_word_runs :
    step (State.reset.withFetchWord 8 0xFA) = .next (inHeader .getLengthLow 0)
      ∧ step (State.reset.withFetchWord 8 0x00) = .next State.reset := ⟨rfl, rfl⟩

/-! ### The CRC-8 operations: V-C5, V-C9, V-C13, V-C13b, V-C17 -/

theorem test_crcStep : (after State.reset (.crcStep 0xFA#8)).map (·.output) = some [.result 0xF3#8] :=
  by decide +kernel
theorem test_crcUpdate : (after State.reset (.crcUpdate 0x00#8 0xFF#8)).map (·.output) = some [.result 0xF3#8] :=
  by decide +kernel
theorem test_crcCalc :
    (after State.reset (.crcCalc [0x31#8, 0x32#8, 0x33#8, 0x34#8, 0x35#8, 0x36#8, 0x37#8, 0x38#8, 0x39#8] 0x00#8)).map
      (·.output) = some [.result 0xF4#8] := by decide +kernel
theorem test_crcCalc_seed :
    (after State.reset (.crcCalc [0x31#8, 0x32#8, 0x33#8, 0x34#8, 0x35#8, 0x36#8, 0x37#8, 0x38#8, 0x39#8] 0xFF#8)).map
      (·.output) = some [.result 0xFB#8] := by decide +kernel
theorem test_crcClr : (after (State.reset.withCrc 0x97#8) .crcClr).map (·.crc) = some 0x00#8 := by decide +kernel
theorem test_crcLoad : (after State.reset (.crcLoad 0xD9#8)).map (·.crc) = some 0xD9#8 := by decide +kernel
theorem test_crcUpd : (after (State.reset.withCrc 0x97#8) (.crcUpd 0x32#8)).map (·.crc) = some 0x72#8 :=
  by decide +kernel
theorem test_crcRead :
    (after (State.reset.withCrc 0x97#8) .crcRead).map (fun t => (t.output, t.crc)) = some ([.result 0x97#8], 0x97#8) := by
  decide +kernel

/-! ### The header phase: V-H2, V-H4, V-H6, V-H9, V-H11, V-H12, V-H14, V-H17 to V-H21 -/

theorem test_wsSkip : after State.reset (.byte 0xFB#8) = some State.reset := by decide +kernel
theorem test_wsSync : after State.reset (.byte 0xFA#8) = some (inHeader .getLengthLow 0) := by decide +kernel
theorem test_llStore : after (inHeader .getLengthLow 0) (.byte 0xFA#8) = some (inHeader .getLengthHigh 0x00FA#16) :=
  by decide +kernel
theorem test_lhOk : after (inHeader .getLengthHigh 0x0039#16) (.byte 0x00#8) = some (inHeader .getHeaderCrc 0x0039#16) :=
  by decide +kernel
theorem test_lhTooLarge :
    after (inHeader .getLengthHigh 0x003A#16) (.byte 0x00#8) = some (State.reset.emit (.drop .frameTooLarge)) :=
  by decide +kernel
theorem test_lhTooLarge_high :
    after (inHeader .getLengthHigh 0x0000#16) (.byte 0x01#8) = some (State.reset.emit (.drop .frameTooLarge)) :=
  by decide +kernel
theorem test_hcOk :
    (after (inHeader .getHeaderCrc 8) (.byte 0x43#8)).map (fun t => (t.framer.headerCrc, t.framer.position))
      = some (0x43#8, .waitDataSync) := by decide +kernel
theorem test_hcBad :
    after (inHeader .getHeaderCrc 8) (.byte 0xFA#8) = some (State.reset.emit (.drop .headerCrcMismatch)) :=
  by decide +kernel
theorem test_dsOk :
    (after (inState .waitDataSync 8 []) (.byte 0xFB#8)).map (fun t => (t.framer.headerCrc, t.framer.position))
      = some (0x43#8, .getData) := by decide +kernel
theorem test_dsEmpty :
    (after (inState .waitDataSync 0 []) (.byte 0xFB#8)).map (fun t => (t.framer.headerCrc, t.framer.position))
      = some (0xEB#8, .getFooterCrc) := by decide +kernel
theorem test_dsBad :
    after (inState .waitDataSync 1 []) (.byte 0xFA#8) = some (State.reset.emit (.drop .dataSyncMismatch)) :=
  by decide +kernel

/-! ### The payload and footer phase: V-P1 to V-P13 -/

theorem test_gdMore_first :
    (after (inState .getData 4 []) (.byte 0x16#8)).map (fun t => (t.framer.payload, t.framer.runCrc, t.framer.kind))
      = some ([(0, 0x16#8)], 0x62#8, some .response) := by decide +kernel
theorem test_gdMore_second :
    (after (inState .getData 4 [0x16#8]) (.byte 0x01#8)).map
      (fun t => (t.framer.receivedLength, t.framer.runCrc, t.framer.sequence, t.framer.position))
      = some (2#16, 0x2E#8, some 0x01#8, .getData) := by decide +kernel
theorem test_gdLast :
    (after (inState .getData 4 [0x16#8, 0x01#8, 0x00#8]) (.byte 0x05#8)).map
      (fun t => (t.framer.receivedLength, t.framer.runCrc, t.framer.position)) = some (4#16, 0x63#8, .getFooterCrc) := by
  decide +kernel
theorem test_gdLast_only :
    (after (inState .getData 1 []) (.byte 0x16#8)).map
      (fun t => (t.framer.kind, t.framer.sequence, t.framer.position)) = some (some .response, none, .getFooterCrc) := by
  decide +kernel
theorem test_fcOk :
    (after (inState .getFooterCrc 4 sample) (.byte 0x63#8)).map (fun t => (t.framer.footerCrc, t.framer.position))
      = some (0x63#8, .getStopByte) := by decide +kernel
theorem test_fcBad :
    after (inState .getFooterCrc 4 sample) (.byte 0xFE#8) = some (State.reset.emit (.drop .dataCrcMismatch)) :=
  by decide +kernel
theorem test_sbOk :
    after (inState .getStopByte 4 sample) (.byte 0xFE#8) = some (State.reset.emit (.packet
      { payload := [0x16#8, 0x01#8, 0x00#8, 0x05#8], declaredLength := 4, receivedLength := 4, headerCrc := 0xBF#8,
        footerCrc := 0x63#8, sequence := some 0x01#8, kind := some .response, valid := true })) := by decide +kernel
theorem test_sbBad :
    after (inState .getStopByte 4 sample) (.byte 0xFA#8) = some (State.reset.emit (.drop .stopByteMismatch)) :=
  by decide +kernel

/-- The five kind rows, each on its own code as first payload byte (R105; V-P14). -/
theorem test_kind_rows :
    [0x0B#8, 0x0C#8, 0x16#8, 0x21#8, 0x0A#8].map
        (fun v => (after ((inState .getData 4 [v]).withFramer ((inState .getData 4 [v]).framer.withKind (some .error)))
          .kindDecode).map (·.framer.kind))
      = [some (some .request), some (some .stream), some (some .response), some (some .error), some none] :=
  by decide +kernel

/-! ### Reset and the notations: R148, V-E2, V-H22, V-C16 -/

theorem test_reset : after ((inState .getData 4 [0x16#8]).withCrc 0x97#8) .reset = some State.reset :=
  by decide +kernel
theorem test_frame :
    (after State.reset (.frame [0x16#8])).map (·.input) =
      some ([0xFA#8, 0x01#8, 0x00#8, 0xFE#8, 0xFB#8, 0x16#8, 0x62#8, 0xFE#8].map Input.byte) := by decide +kernel
theorem test_hdr :
    (after State.reset (.hdr 8)).map (·.input) =
      some ([0xFA#8, 0x08#8, 0x00#8, 0x43#8, 0xFB#8].map Input.byte) := by decide +kernel
theorem test_hdr_above_maxLen :
    (after State.reset (.hdr 58)).map (·.input) =
      some ([0xFA#8, 0x3A#8, 0x00#8, 0x90#8, 0xFB#8].map Input.byte) := by decide +kernel

/-! ### States that meet the hypotheses of the statements -/

/-- A state that has the invariant, in the middle of a payload and with two bytes collected. -/
theorem witness_inv_getData : (inState .getData 4 [0x16#8, 0x01#8]).Inv :=
  ⟨by decide +kernel, by constructor <;> decide +kernel, by refine ⟨?_, ?_, ?_, ?_⟩ <;> decide +kernel⟩

/-- A state that has the invariant, before the stop byte, with an input waiting. -/
theorem witness_inv_getStopByte : ((inState .getStopByte 4 sample).withInput [.byte 0xFE#8]).Inv :=
  ⟨by decide +kernel, by constructor <;> decide +kernel, by refine ⟨?_, ?_, ?_, ?_⟩ <;> decide +kernel⟩

/-- The packet that the sample state hands over. -/
def samplePacket : Packet := packetFor sample

/-- The state after it. -/
def sampleAfter : State := State.reset.emit (.packet samplePacket)

theorem witness_StepRunsTheDecodedInstruction :
    ((inState .getData 4 []).withInput [.byte 0x16#8, .crcClr]).input = .byte 0x16#8 :: [.crcClr]
      ∧ decode ((inState .getData 4 []).withInput [.crcClr]).ctx (.byte 0x16#8) = .ok (.gdMore 0x16#8) :=
  ⟨rfl, rfl⟩

theorem witness_BlockWaitsWithoutInput : (inState .getStopByte 4 sample).input = [] := rfl

theorem witness_SyncStartsAFrameAndOthersAreSkipped :
    (inHeader .waitSync 0).framer.position = .waitSync ∧ 0xF9#8 ≠ 0xFA#8 ∧ 0xFB#8 ≠ 0xFA#8 := by decide +kernel

theorem witness_LowLengthByteIsStored : (inHeader .getLengthLow 0).framer.position = .getLengthLow := rfl

/-- The bound from both sides: 57 is kept, 58 is dropped. -/
theorem witness_HighLengthByteCompletesOrDrops :
    (inHeader .getLengthHigh 57).framer.position = .getLengthHigh
      ∧ 57#16 = ((0#8).setWidth 16 <<< 8) ||| ((inHeader .getLengthHigh 57).framer.declaredLength.extractLsb' 0 8).setWidth 16
      ∧ (57#16).toNat ≤ (inHeader .getLengthHigh 57).cfg.maxLen
      ∧ 58#16 = ((0#8).setWidth 16 <<< 8) ||| ((inHeader .getLengthHigh 58).framer.declaredLength.extractLsb' 0 8).setWidth 16
      ∧ (inHeader .getLengthHigh 58).cfg.maxLen < (58#16).toNat := by decide +kernel

theorem witness_HeaderChecksumIsCompared :
    (inHeader .getHeaderCrc 8).framer.position = .getHeaderCrc
      ∧ 0x43#8 = crc8 [0xFA#8, (inHeader .getHeaderCrc 8).framer.declaredLength.extractLsb' 0 8,
        (inHeader .getHeaderCrc 8).framer.declaredLength.extractLsb' 8 8]
      ∧ 0x44#8 ≠ 0x43#8 := by decide +kernel

theorem witness_DataSyncIsRequired :
    (inState .waitDataSync 1 []).framer.position = .waitDataSync ∧ (inState .waitDataSync 1 []).framer.declaredLength ≠ 0
      ∧ (inState .waitDataSync 0 []).framer.position = .waitDataSync
      ∧ (inState .waitDataSync 0 []).framer.declaredLength = 0 ∧ 0xFA#8 ≠ 0xFB#8 := by decide +kernel

/-- The last index of the buffer, and the payload's end from both sides. -/
theorem witness_PayloadByteIsCollected :
    (inState .getData 0 (List.replicate 63 0#8)).framer.receivedLength.toNat
        < (inState .getData 0 (List.replicate 63 0#8)).cfg.capacity
      ∧ (inState .getData 3 [1#8]).framer.position = .getData
      ∧ (inState .getData 3 [1#8]).framer.receivedLength.toNat + 1 < (inState .getData 3 [1#8]).framer.declaredLength.toNat
      ∧ (inState .getData 2 [1#8]).framer.position = .getData
      ∧ (inState .getData 2 [1#8]).framer.receivedLength.toNat + 1 = (inState .getData 2 [1#8]).framer.declaredLength.toNat := by
  decide +kernel

theorem witness_DataChecksumIsCompared :
    (inState .getFooterCrc 4 sample).framer.position = .getFooterCrc
      ∧ 0x63#8 = (inState .getFooterCrc 4 sample).framer.runCrc ∧ 0x62#8 ≠ (inState .getFooterCrc 4 sample).framer.runCrc := by
  decide +kernel

/-- A full and an empty payload to hand over. -/
theorem witness_StopByteEmitsOrDrops :
    (sample.length = (inState .getStopByte 4 sample).framer.receivedLength.toNat
      ∧ ∀ i < sample.length, Memory.read (inState .getStopByte 4 sample).framer.payload i = sample[i]?)
    ∧ ([] : List Byte).length = (inState .getStopByte 0 []).framer.receivedLength.toNat
    ∧ (inState .getStopByte 4 sample).framer.position = .getStopByte ∧ 0xFD#8 ≠ 0xFE#8 := by decide +kernel

theorem witness_KindIsDecodedFromTheFirstPayloadByte :
    (0x0A#8 ≠ 0x0B#8 ∧ 0x0A#8 ≠ 0x0C#8 ∧ 0x0A#8 ≠ 0x16#8 ∧ 0x0A#8 ≠ 0x21#8)
    ∧ ((inState .getData 1 []).framer.position = .getData ∧ (inState .getData 1 []).framer.receivedLength = 0
      ∧ 0 < (inState .getData 1 []).cfg.capacity)
    ∧ presentByte 0xFE#8 (inState .getStopByte 4 sample) = .next sampleAfter :=
  ⟨by decide +kernel, by decide +kernel, eq_next (by decide +kernel)⟩

theorem witness_KindRowsWriteTheKind :
    0 < (inState .getData 4 [0x16#8]).framer.receivedLength.toNat
      ∧ Memory.read (inState .getData 4 [0x16#8]).framer.payload 0 = some 0x16#8 := by decide +kernel

/-- The first index outside the buffer; a buffer with its second byte missing; no payload byte at all. -/
theorem witness_AccessesOutsideTheBufferFault :
    (inState .getData 64 (List.replicate 64 0#8)).cfg.capacity
        ≤ (inState .getData 64 (List.replicate 64 0#8)).framer.receivedLength.toNat
    ∧ (let f := (inState .getStopByte 2 [1#8]).framer.withReceivedLength 2
      1 < f.receivedLength.toNat ∧ Memory.read f.payload 1 = none ∧ ∀ j < 1, Memory.read f.payload j ≠ none)
    ∧ State.reset.framer.receivedLength = 0 := by decide +kernel

theorem witness_DropResetsEveryRegister :
    (DropCause.dataSyncMismatch, Instr.dsBad 0xFA#8) ∈
      [(DropCause.frameTooLarge, Instr.lhTooLarge 0xFA#8), (.headerCrcMismatch, .hcBad 0xFA#8),
        (.dataSyncMismatch, .dsBad 0xFA#8), (.dataCrcMismatch, .fcBad 0xFA#8), (.stopByteMismatch, .sbBad 0xFA#8)] := by
  decide +kernel

/-- Each of the five drops happens, which is the left side of the equivalence. -/
theorem witness_DropCausesArePrecise :
    (after (inHeader .getLengthHigh 58) (.byte 0#8)).map (·.output) = some [.drop .frameTooLarge]
      ∧ (after (inHeader .getHeaderCrc 8) (.byte 0x42#8)).map (·.output) = some [.drop .headerCrcMismatch]
      ∧ (after (inState .waitDataSync 8 []) (.byte 0xFC#8)).map (·.output) = some [.drop .dataSyncMismatch]
      ∧ (after (inState .getFooterCrc 4 sample) (.byte 0x64#8)).map (·.output) = some [.drop .dataCrcMismatch]
      ∧ (after (inState .getStopByte 4 sample) (.byte 0xFF#8)).map (·.output) = some [.drop .stopByteMismatch] :=
  by decide +kernel

theorem witness_StepEmitsAtMostOneEvent :
    step ((inState .getStopByte 4 sample).withInput [.byte 0xFE#8]) = .next sampleAfter :=
  eq_next (by decide +kernel)

/-- A run whose last byte drops a frame. -/
theorem witness_OutcomeLeavesTheResetState :
    runBytes 0 ([0xFA#8, 0x3A#8] ++ [0x00#8]) State.reset =
        .next ([(2, .drop .frameTooLarge)], State.reset.emit (.drop .frameTooLarge))
      ∧ ([0xFA#8, 0x3A#8].length, Output.drop .frameTooLarge) ∈ [(2, Output.drop .frameTooLarge)] :=
  ⟨eq_next (by decide +kernel), by decide +kernel⟩

/-- In every position a byte gives a next state, on both sides of each condition. -/
theorem witness_SuccessorOfEveryPosition :
    ([(inHeader .waitSync 0, 0xFA#8), (inHeader .waitSync 0, 0xFB#8), (inHeader .getLengthLow 0, 0x00#8),
      (inHeader .getLengthHigh 57, 0x00#8), (inHeader .getLengthHigh 58, 0x00#8), (inHeader .getHeaderCrc 8, 0x43#8),
      (inHeader .getHeaderCrc 8, 0x44#8), (inState .waitDataSync 1 [], 0xFB#8), (inState .waitDataSync 0 [], 0xFB#8),
      (inState .waitDataSync 1 [], 0xFA#8), (inState .getData 2 [], 0x00#8), (inState .getData 1 [], 0x00#8),
      (inState .getFooterCrc 4 sample, 0x63#8), (inState .getFooterCrc 4 sample, 0x62#8),
      (inState .getStopByte 4 sample, 0xFE#8), (inState .getStopByte 4 sample, 0xFD#8)].all
        fun sb => (after sb.1 (.byte sb.2)).isSome) = true := by decide +kernel

theorem witness_OneChangedByteChangesTheChecksum : 0x16#8 ≠ 0x17#8 := by decide +kernel

theorem witness_ChecksumRegisterFoldsAList :
    (State.reset.withInput [.crcLoad 0xD9#8, .crcUpd 0x64#8, .crcUpd 0x00#8]).input =
      .crcLoad 0xD9#8 :: [0x64#8, 0x00#8].map Input.crcUpd := rfl

/-- The largest payload. -/
theorem witness_FrameNotationExpands :
    (List.replicate 57 0xFA#8).length ≤ State.reset.cfg.maxLen
      ∧ 0x39#8 = BitVec.ofNat 8 (List.replicate 57 0xFA#8).length
      ∧ 0x00#8 = BitVec.ofNat 8 ((List.replicate 57 0xFA#8).length / 256) := by decide +kernel

/-- The largest accepted length, and the largest length there is. -/
theorem witness_HeaderNotationExpands :
    (0x39#8 = (57#16).extractLsb' 0 8 ∧ 0x00#8 = (57#16).extractLsb' 8 8)
      ∧ 0xFF#8 = (0xFFFF#16).extractLsb' 0 8 ∧ 0xFF#8 = (0xFFFF#16).extractLsb' 8 8 := by decide +kernel

theorem witness_OverlongNotationIsRefused :
    State.reset.cfg.maxLen < (List.replicate 58 0#8).length :=
  by decide +kernel

/-- Every one of the 31 instructions answers a next state somewhere: what the three frame statements ask for. -/
theorem witness_frames_of_all_instructions :
    ([Instr.wsSync, .wsSkip 0, .llStore 1, .lhOk 0, .lhTooLarge 1, .hcOk 1, .hcBad 1, .dsOk, .dsEmpty, .dsBad 1, .gdMore 1,
      .gdLast 1, .fcOk 1, .fcBad 1, .sbOk, .sbBad 1, .crcStep 1, .crcUpdate 1 2, .crcCalc [1, 2] 3, .crcClr, .crcLoad 1,
      .crcUpd 1, .crcRead, .kindRequest, .kindStream, .kindResponse, .kindError, .kindNone 0, .reset, .frame sample,
      .hdr 57].all fun i => completes i (inState .getStopByte 4 sample)) = true := by decide +kernel

theorem witness_RegistersAreWrittenOnlyByTheirInstructions :
    exec .sbOk (inState .getStopByte 4 sample) = .next sampleAfter :=
  eq_next (by decide +kernel)

theorem witness_BufferBytesChangeOnlyWhereStored :
    exec (.gdLast 0x05#8) (inState .getData 4 [0x16#8, 0x01#8, 0x00#8]) = .next (inState .getFooterCrc 4 sample) :=
  eq_next (by decide +kernel)

theorem witness_RestOfTheMachineIsLeftAlone :
    exec (.crcLoad 0xD9#8) (inState .getData 4 sample) = .next ((inState .getData 4 sample).withCrc 0xD9#8) := rfl

/-- An invariant state and a step from it. -/
theorem witness_InvariantIsKeptByEveryStep :
    ((inState .getStopByte 4 sample).withInput [.byte 0xFE#8]).Inv
      ∧ step ((inState .getStopByte 4 sample).withInput [.byte 0xFE#8]) = .next sampleAfter :=
  ⟨witness_inv_getStopByte, eq_next (by decide +kernel)⟩

theorem witness_OrderlyInputNeverStopsTheBlock :
    ((inState .getStopByte 4 sample).withInput [.byte 0xFE#8]).Inv
      ∧ ∀ x ∈ ((inState .getStopByte 4 sample).withInput [.byte 0xFE#8]).input.head?,
        orderlyInput Config.standard x = true := ⟨witness_inv_getStopByte, by decide +kernel⟩

theorem witness_EmittedPacketsAreGenuine :
    ((inState .getStopByte 4 sample).withInput [.byte 0xFE#8]).Inv
      ∧ step ((inState .getStopByte 4 sample).withInput [.byte 0xFE#8]) = .next sampleAfter
      ∧ sampleAfter.output = ((inState .getStopByte 4 sample).withInput [.byte 0xFE#8]).output ++ [.packet samplePacket] :=
  ⟨witness_inv_getStopByte, eq_next (by decide +kernel), by decide +kernel⟩

theorem witness_WaitSyncMeansResetState :
    exec .reset (inState .getData 4 [0x16#8]) = .next State.reset
      ∧ (presentByte 0xFE#8 (inState .getStopByte 4 sample) = .next sampleAfter
        ∧ sampleAfter.output ≠ (inState .getStopByte 4 sample).output)
      ∧ (State.reset.framer.position = .waitSync → State.reset.framer = Framer.reset)
      ∧ step (State.reset.withInput [.byte 0x00#8]) = .next State.reset :=
  ⟨rfl, ⟨eq_next (by decide +kernel), by decide +kernel⟩, fun _ => rfl, rfl⟩

theorem witness_BufferStaysCanonical :
    (inState .getData 4 [0x16#8, 0x01#8, 0x00#8]).framer.payload.wf = true
      ∧ presentByte 0x05#8 (inState .getData 4 [0x16#8, 0x01#8, 0x00#8]) = .next (inState .getFooterCrc 4 sample) :=
  ⟨rfl, eq_next (by decide +kernel)⟩

/-- Two runs, the second of which drops. -/
theorem witness_RunsCompose :
    runBytes 0 [0xFA#8] State.reset = .next ([], inHeader .getLengthLow 0)
      ∧ runBytes (0 + [0xFA#8].length) [0x3A#8, 0x00#8] (inHeader .getLengthLow 0) =
        .next ([(2, .drop .frameTooLarge)], State.reset.emit (.drop .frameTooLarge)) :=
  ⟨rfl, eq_next (by decide +kernel)⟩

theorem witness_GapsAreIgnored :
    State.reset.framer.position = .waitSync ∧ (0xFA#8 : Byte) ∉ [0x00#8, 0x13#8, 0xFE#8, 0xFB#8] := by decide +kernel

theorem witness_HeaderPhaseReachesThePayload :
    State.reset.framer = Framer.reset ∧ (57#16).toNat ≤ State.reset.cfg.maxLen ∧ (0#16).toNat ≤ State.reset.cfg.maxLen := by
  decide +kernel

/-- The largest and the empty payload. -/
theorem witness_WellFormedFrameIsAccepted :
    State.reset.cfg.ok ∧ State.reset.framer = Framer.reset ∧ (List.replicate 57 0xFA#8).length ≤ State.reset.cfg.maxLen
      ∧ ([] : List Byte).length ≤ State.reset.cfg.maxLen := by decide +kernel

theorem witness_StreamOfFramesGivesItsPackets :
    State.reset.cfg.ok ∧ State.reset.framer = Framer.reset ∧ (0xFA#8 : Byte) ∉ [0x00#8]
      ∧ ∀ pg ∈ [(sample, [0xFE#8]), ([], []), ([0xFA#8, 0xFB#8, 0xFE#8], [0xFB#8])],
        pg.1.length ≤ State.reset.cfg.maxLen ∧ (0xFA#8 : Byte) ∉ pg.2 := by decide +kernel

/-- A run with an accepted frame in it (V-E2). -/
theorem witness_OnlyWellFormedFramesAreAccepted :
    State.reset.cfg.ok ∧ State.reset.framer = Framer.reset
      ∧ runBytes 0 [0x00#8, 0xFA#8, 0x01#8, 0x00#8, 0xFE#8, 0xFB#8, 0x16#8, 0x62#8, 0xFE#8] State.reset =
        .next ([(8, .packet (packetFor [0x16#8]))], State.reset.emit (.packet (packetFor [0x16#8])))
      ∧ (8, Output.packet (packetFor [0x16#8])) ∈ [(8, Output.packet (packetFor [0x16#8]))] :=
  ⟨by decide +kernel, rfl, eq_next (by decide +kernel), by decide +kernel⟩

theorem witness_EveryAttemptEndsInTime :
    (inState .getData 4 [0x16#8, 0x01#8]).Inv
      ∧ (inState .getData 4 [0x16#8, 0x01#8]).cfg.maxLen + 6 ≤ (List.replicate 63 0xFA#8).length :=
  ⟨witness_inv_getData, by decide +kernel⟩

/-- Every clause of the substitution statement: the low and the high length byte with a result within and beyond the bound,
the two markers, the two checksums, the first and the last payload byte, each with the outcome R141 gives. -/
theorem witness_SubstitutedByteIsCaught :
    State.reset.cfg.ok ∧ State.reset.framer = Framer.reset ∧ sample.length ≤ State.reset.cfg.maxLen
      ∧ [(1, 0x3A#8), (1, 0x39#8), (2, 0x01#8), (3, 0xBE#8), (4, 0xFA#8), (5, 0x17#8), (8, 0x04#8), (9, 0x62#8), (10, 0xFA#8)].all
        (fun iv => decide (iv.1 < sample.length + 7 ∧ (frameEncode sample)[iv.1]? ≠ some iv.2)) = true
      ∧ [(1, 0x3A#8), (1, 0x39#8), (2, 0x01#8), (3, 0xBE#8), (4, 0xFA#8), (5, 0x17#8), (8, 0x04#8), (9, 0x62#8), (10, 0xFA#8)].map
        (fun iv => outputsOf ((frameEncode sample).set iv.1 iv.2) State.reset) =
        [some [(2, .drop .frameTooLarge)], some [(3, .drop .headerCrcMismatch)], some [(2, .drop .frameTooLarge)],
          some [(3, .drop .headerCrcMismatch)], some [(4, .drop .dataSyncMismatch)], some [(9, .drop .dataCrcMismatch)],
          some [(9, .drop .dataCrcMismatch)], some [(9, .drop .dataCrcMismatch)], some [(10, .drop .stopByteMismatch)]] := by
  decide +kernel

/-- The first and the last byte replaced in a frame with no further `0xFA`. -/
theorem witness_SubstitutedFrameGivesNoPacket :
    State.reset.cfg.ok ∧ sample.length ≤ State.reset.cfg.maxLen ∧ 0 < sample.length + 7 ∧ 10 < sample.length + 7
      ∧ (frameEncode sample)[0]? ≠ some 0x00#8 ∧ (frameEncode sample)[10]? ≠ some 0xFA#8
      ∧ (0xFA#8 : Byte) ∉ (frameEncode sample).drop 1 := by decide +kernel

theorem witness_LengthIsLittleEndian :
    (inHeader .getLengthLow 0).framer.position = .getLengthLow
      ∧ (0x39#8).toNat + 256 * (0x00#8).toNat ≤ (inHeader .getLengthLow 0).cfg.maxLen := by decide +kernel

theorem witness_NoFrameIsAPrefixOfAnother :
    sample.length ≤ 65535 ∧ frameEncode sample <+: frameEncode sample := ⟨by decide +kernel, List.prefix_refl _⟩

theorem witness_WellFormedFramesAreTheEncodedOnes : Config.standard.ok := by decide +kernel

end Sys2Proof.Tests
end

section
/-! SUPPORT. What the buffer of a frame in progress reads as, what a step on a byte does in each position, and what the
other inputs do to the framer: the facts from which the statements about the registers are assembled. -/

namespace Sys2Proof.Machine

/-! ### Reading the collected payload back -/

theorem Framer.Collecting.length_collected {f : Framer} (hf : f.Collecting) :
    f.collected.length = f.receivedLength.toNat := by
  simpa [Framer.collected] using congrArg List.length hf.indices

/-- Every index below `received_length` reads as the byte collected there (R27, R36). -/
theorem Framer.Collecting.memRead_eq {f : Framer} (hf : f.Collecting) {i : Nat} (hi : i < f.collected.length) :
    memRead f i = .ok f.collected[i] := by
  have hlen : f.payload.length = f.receivedLength.toNat := by simpa [Framer.collected] using hf.length_collected
  have hidx : f.payload.map Prod.fst = List.range' 0 f.payload.length := by
    rw [hlen, ← List.range_eq_range']
    exact hf.indices
  have hread := Memory.read_of_range' f.payload 0 i hidx (by simpa [Framer.collected] using hi)
  rw [Nat.zero_add] at hread
  refine memRead_eq_ok.mpr ⟨hf.length_collected ▸ hi, ?_⟩
  rw [hread]
  exact List.getElem?_eq_getElem hi

/-- The copy that an emission makes is the collected payload (R107). -/
theorem Framer.Collecting.memReadRange_eq {f : Framer} (hf : f.Collecting) :
    memReadRange f 0 f.receivedLength.toNat = .ok f.collected := by
  refine memReadRange_eq_ok.mpr ⟨hf.length_collected, fun i hi => ?_⟩
  rw [Nat.zero_add]
  exact hf.memRead_eq hi

/-! ### The step on a byte, position by position (R64, R93, R112) -/

section
variable {s t : State} {b : Byte}

theorem presentByte_waitSync (h : s.framer.position = .waitSync) :
    presentByte b s =
      if b = 0xFA#8 then .next (s.withFramer (Framer.reset.goto .getLengthLow)) else .next s := by
  rw [presentByte_eq, decodeByte_waitSync h]
  split <;> rfl

theorem presentByte_getLengthLow (h : s.framer.position = .getLengthLow) :
    presentByte b s =
      .next (s.withFramer ((s.framer.withDeclaredLength (lengthFromLow b)).goto .getLengthHigh)) := by
  rw [presentByte_eq, decodeByte_getLengthLow h]
  rfl

theorem presentByte_getLengthHigh (h : s.framer.position = .getLengthHigh) :
    presentByte b s =
      if (assembleLength b s.framer.declaredLength).toNat ≤ s.cfg.maxLen then
        .next (s.withFramer
          ((s.framer.withDeclaredLength (assembleLength b s.framer.declaredLength)).goto .getHeaderCrc))
      else .next (raiseDrop .frameTooLarge s) := by
  rw [presentByte_eq, decodeByte_getLengthHigh h]
  split <;> rfl

theorem presentByte_getHeaderCrc (h : s.framer.position = .getHeaderCrc) :
    presentByte b s =
      if b = headerCrcOf s.framer.declaredLength then
        .next (s.withFramer ((s.framer.withHeaderCrc b).goto .waitDataSync))
      else .next (raiseDrop .headerCrcMismatch s) := by
  rw [presentByte_eq, decodeByte_getHeaderCrc h]
  split <;> rfl

theorem presentByte_waitDataSync (h : s.framer.position = .waitDataSync) :
    presentByte b s =
      if b = 0xFB#8 then
        .next (s.withFramer (s.framer.goto (if s.framer.declaredLength = 0 then .getFooterCrc else .getData)))
      else .next (raiseDrop .dataSyncMismatch s) := by
  rw [presentByte_eq, decodeByte_waitDataSync h]
  by_cases hb : b = 0xFB#8
  · by_cases hl : s.framer.declaredLength = 0
    · rw [if_pos hb, if_pos hb, if_pos hl, if_pos hl]; rfl
    · rw [if_pos hb, if_pos hb, if_neg hl, if_neg hl]; rfl
  · rw [if_neg hb, if_neg hb]; rfl

/-- `GD.MORE` and `GD.LAST` share one body, so the decoded class does not matter here (R98). -/
theorem presentByte_getData (h : s.framer.position = .getData) : presentByte b s = collectByte b s := by
  rw [presentByte_eq, decodeByte_getData h]
  split <;> rfl

theorem presentByte_getFooterCrc (h : s.framer.position = .getFooterCrc) :
    presentByte b s =
      if b = s.framer.runCrc then .next (s.withFramer ((s.framer.withFooterCrc b).goto .getStopByte))
      else .next (raiseDrop .dataCrcMismatch s) := by
  rw [presentByte_eq, decodeByte_getFooterCrc h]
  split <;> rfl

theorem presentByte_getStopByte (h : s.framer.position = .getStopByte) :
    presentByte b s = if b = 0xFE#8 then acceptPacket s else .next (raiseDrop .stopByteMismatch s) := by
  rw [presentByte_eq, decodeByte_getStopByte h]
  split <;> rfl

/-- A collected byte leaves the framer collecting or moves it on to the footer (R101). -/
theorem collectByte_position (h : collectByte b s = .next t) :
    t.framer.position =
      if s.framer.receivedLength + 1 = s.framer.declaredLength then .getFooterCrc else s.framer.position := by
  obtain ⟨-, rfl⟩ := collectByte_next.mp h
  rfl

theorem collectByte_output (h : collectByte b s = .next t) : t.output = s.output := by
  obtain ⟨-, rfl⟩ := collectByte_next.mp h
  rfl

/-- An acceptance hands over one packet and leaves the reset state (R108, R109). -/
theorem acceptPacket_reset (h : acceptPacket s = .next t) :
    t.framer = Framer.reset ∧ ∃ p, t.output = s.output ++ [.packet p] := by
  obtain ⟨bs, -, rfl⟩ := acceptPacket_next.mp h
  exact ⟨rfl, _, rfl⟩

/-- A byte is skipped between frames, or ends a frame in the reset state, or takes the framer silently to a position
inside a frame (R17, R34). -/
theorem presentByte_framer_cases (h : presentByte b s = .next t) :
    t = s ∨ t.framer = Framer.reset ∨ (t.framer.position ≠ .waitSync ∧ t.output = s.output) := by
  cases hp : s.framer.position with
  | waitSync =>
    rw [presentByte_waitSync hp] at h
    split at h <;> cases h
    · exact .inr (.inr ⟨by simp, rfl⟩)
    · exact .inl rfl
  | getLengthLow =>
    rw [presentByte_getLengthLow hp] at h
    cases h
    exact .inr (.inr ⟨by simp, rfl⟩)
  | getLengthHigh =>
    rw [presentByte_getLengthHigh hp] at h
    split at h <;> cases h
    · exact .inr (.inr ⟨by simp, rfl⟩)
    · exact .inr (.inl rfl)
  | getHeaderCrc =>
    rw [presentByte_getHeaderCrc hp] at h
    split at h <;> cases h
    · exact .inr (.inr ⟨by simp, rfl⟩)
    · exact .inr (.inl rfl)
  | waitDataSync =>
    rw [presentByte_waitDataSync hp] at h
    split at h <;> cases h
    · exact .inr (.inr ⟨by simp only [State.withFramer_framer, Framer.goto_position]; split <;> simp, rfl⟩)
    · exact .inr (.inl rfl)
  | getData =>
    rw [presentByte_getData hp] at h
    refine .inr (.inr ⟨?_, collectByte_output h⟩)
    rw [collectByte_position h, hp]
    split <;> simp
  | getFooterCrc =>
    rw [presentByte_getFooterCrc hp] at h
    split at h <;> cases h
    · exact .inr (.inr ⟨by simp, rfl⟩)
    · exact .inr (.inl rfl)
  | getStopByte =>
    rw [presentByte_getStopByte hp] at h
    split at h
    · exact .inr (.inl (acceptPacket_reset h).1)
    · cases h
      exact .inr (.inl rfl)

end

/-! ### The other inputs, and what a step can put out -/

section
variable {s t : State}

/-- The decoder sees the first payload byte exactly when a read of it is defined (R36). -/
theorem State.ctx_payload0_eq_some {v : Byte} : s.ctx.payload0 = some v ↔ memRead s.framer 0 = .ok v := by
  cases h : memRead s.framer 0 <;> simp [State.ctx, h]

/-- The five kind rows together write what `DecodeKind` gives (R105). -/
theorem exec_decodeKindRow (v : Byte) (s : State) :
    exec (decodeKindRow v) s = .next (s.withFramer (s.framer.withKind (decodeKind v))) := by
  unfold decodeKindRow
  cases decodeKind v with
  | none => rfl
  | some k => cases k <;> rfl

theorem execFrame_next {p : List Byte} :
    execFrame p s = .next t ↔ p.length ≤ s.cfg.maxLen ∧ t = s.expand (frameEncode p) := by
  unfold execFrame
  split <;> simp_all [eq_comm]

/-- Everything a step can do to the framer, by the input it takes: the work of a byte, the kind of a first payload byte that
is there, a reset, or nothing. -/
theorem step_framer_cases (h : step s = .next t) :
    (∃ b rest, s.input = .byte b :: rest ∧ presentByte b (s.withInput rest) = .next t) ∨
      (∃ v, memRead s.framer 0 = .ok v ∧ t.framer = s.framer.withKind (decodeKind v)) ∨
      t.framer = Framer.reset ∨ t.framer = s.framer := by
  obtain ⟨-, rfl⟩ | ⟨x, rest, i, hin, hd, he⟩ := step_cases h
  · exact .inr (.inr (.inr rfl))
  · cases x with
    | byte b =>
      cases hd
      exact .inl ⟨b, rest, hin, he⟩
    | kindDecode =>
      cases hv : (s.withInput rest).ctx.payload0 with
      | none => simp [decode, hv] at hd
      | some v =>
        simp only [decode, hv, Except.ok.injEq] at hd
        subst hd
        rw [exec_decodeKindRow] at he
        cases he
        exact .inr (.inl ⟨v, State.ctx_payload0_eq_some.mp hv, rfl⟩)
    | reset =>
      cases hd
      cases he
      exact .inr (.inr (.inl rfl))
    | frame p =>
      simp only [decode] at hd
      split at hd <;> cases hd
      obtain ⟨-, rfl⟩ := execFrame_next.mp he
      exact .inr (.inr (.inr rfl))
    | crcStep | crcUpdate | crcCalc | crcClr | crcLoad | crcUpd | crcRead | hdr =>
      cases hd
      cases he
      exact .inr (.inr (.inr rfl))
    | byteInStep | resetInStep => cases hd

/-- Everything an instruction can put on the outputs: nothing, a returned value, a drop report, or, for `SB.OK` alone, a
packet (R11, R107). -/
theorem exec_output_cases {i : Instr} (h : exec i s = .next t) :
    t.output = s.output ∨ (∃ v, t.output = s.output ++ [.result v]) ∨ (∃ c, t.output = s.output ++ [.drop c]) ∨
      i = .sbOk := by
  cases i with
  | crcStep | crcUpdate | crcCalc | crcRead =>
    cases h
    exact .inr (.inl ⟨_, rfl⟩)
  | lhTooLarge | hcBad | dsBad | fcBad | sbBad =>
    cases h
    exact .inr (.inr (.inl ⟨_, rfl⟩))
  | sbOk => exact .inr (.inr (.inr rfl))
  | gdMore | gdLast => exact .inl (collectByte_output h)
  | frame p =>
    obtain ⟨-, rfl⟩ := execFrame_next.mp h
    exact .inl rfl
  | wsSync | wsSkip | llStore | lhOk | hcOk | dsOk | dsEmpty | fcOk | crcClr | crcLoad | crcUpd | kindRequest
  | kindStream | kindResponse | kindError | kindNone | reset | hdr =>
    cases h
    exact .inl rfl

/-- A meaning that puts a packet out is the accepting end of a frame. -/
theorem eq_sbOk_of_exec_packet {i : Instr} {p : Packet} (h : exec i s = .next t)
    (ho : t.output = s.output ++ [.packet p]) : i = .sbOk := by
  obtain hsame | ⟨v, hres⟩ | ⟨c, hdrop⟩ | hi := exec_output_cases h
  · simp [hsame] at ho
  · simp [hres] at ho
  · simp [hdrop] at ho
  · exact hi

/-- The class `SB.OK` is decoded in `GetStopByte` only (R64). -/
theorem position_of_decodeByte_sbOk {b : Byte} (h : decodeByte s.ctx b = .sbOk) :
    s.framer.position = .getStopByte := by
  cases hp : s.framer.position with
  | waitSync =>
    rw [decodeByte_waitSync hp] at h
    split at h <;> cases h
  | getLengthLow =>
    rw [decodeByte_getLengthLow hp] at h
    cases h
  | getLengthHigh =>
    rw [decodeByte_getLengthHigh hp] at h
    split at h <;> cases h
  | getHeaderCrc =>
    rw [decodeByte_getHeaderCrc hp] at h
    split at h <;> cases h
  | waitDataSync =>
    rw [decodeByte_waitDataSync hp] at h
    split at h
    · split at h <;> cases h
    · cases h
  | getData =>
    rw [decodeByte_getData hp] at h
    split at h <;> cases h
  | getFooterCrc =>
    rw [decodeByte_getFooterCrc hp] at h
    split at h <;> cases h
  | getStopByte => rfl

/-- A kind row is not `SB.OK`. -/
theorem decodeKindRow_ne_sbOk (v : Byte) : decodeKindRow v ≠ .sbOk := by
  unfold decodeKindRow
  cases decodeKind v with
  | none => simp
  | some k => cases k <;> simp

/-- Only a byte in `GetStopByte` is decoded to `SB.OK` (R64, R67). -/
theorem position_of_decode_sbOk {x : Input} (h : decode s.ctx x = .ok .sbOk) : s.framer.position = .getStopByte := by
  cases x with
  | byte b => exact position_of_decodeByte_sbOk (Except.ok.inj h)
  | kindDecode =>
    simp only [decode] at h
    split at h
    · exact absurd (Except.ok.inj h) (decodeKindRow_ne_sbOk _)
    · cases h
  | frame p =>
    simp only [decode] at h
    split at h <;> cases h
  | reset | crcStep | crcUpdate | crcCalc | crcClr | crcLoad | crcUpd | crcRead | hdr | byteInStep | resetInStep =>
    cases h

end

end Sys2Proof.Machine
end

section
/-! The statements about the registers and the invariant: reset, the numbers of the positions, the successor relation,
`WaitSync` as the reset state, and what an emitted packet guarantees (spec/10_state.md). -/

namespace Sys2Proof.Machine

/-! ### Emitted packets -/

theorem Framer.inPosition_getStopByte {cfg : Config} {f : Framer} (h : f.position = .getStopByte) :
    f.InPosition cfg ↔ f.declaredLength.toNat ≤ cfg.maxLen ∧ f.headerCrc = headerCrcOf f.declaredLength
      ∧ f.receivedLength = f.declaredLength ∧ f.footerCrc = f.runCrc := by
  rw [Framer.InPosition, h]

/-- The packet made in `GetStopByte` under the invariant is genuine: each clause is the invariant's clause for the register
the packet copies, and the flag is set before the copy (R107, R108). -/
theorem packetOf_genuine {s : State} (hs : s.Inv) (hp : s.framer.position = .getStopByte) :
    (packetOf s.framer.markValid s.framer.collected).Genuine s.cfg := by
  have hc := hs.collecting
  obtain ⟨hbound, hheader, hlength, hfooter⟩ := (Framer.inPosition_getStopByte hp).mp hs.inPosition
  exact
    { valid := rfl
      complete := hlength
      length := hc.length_collected.trans (congrArg BitVec.toNat hlength)
      bounded := hbound
      headerCrc := hheader
      footerCrc := hfooter.trans hc.runCrc
      kind := hc.kind
      sequence := hc.sequence }

/-- An acceptance under the invariant hands over the collected payload. -/
theorem acceptPacket_output {s t : State} (hc : s.framer.Collecting) (h : acceptPacket s = .next t) :
    t.output = s.output ++ [.packet (packetOf s.framer.markValid s.framer.collected)] := by
  obtain ⟨bs, hread, rfl⟩ := acceptPacket_next.mp h
  obtain rfl : s.framer.collected = bs := Except.ok.inj (hc.memReadRange_eq.symm.trans hread)
  rfl

/-- Settles O40: the step that puts out a packet runs `SB.OK` in `GetStopByte`, where the invariant gives every clause. -/
theorem emittedPacketsAreGenuine : Obligations.EmittedPacketsAreGenuine := by
  intro s t p hs h ho
  obtain ⟨-, rfl⟩ | ⟨x, rest, i, -, hd, he⟩ := step_cases h
  · simp at ho
  · obtain rfl := eq_sbOk_of_exec_packet he ho
    have hp : s.framer.position = .getStopByte := position_of_decode_sbOk hd
    have hout := acceptPacket_output (s := s.withInput rest) hs.collecting he
    obtain rfl : packetOf s.framer.markValid s.framer.collected = p := by
      simpa using hout.symm.trans ho
    exact packetOf_genuine hs hp

/-! ### The successor relation of `state` -/

/-- The assembled length of R86 in the library's terms. -/
theorem assembleLength_eq (b : Byte) (n : Half) :
    assembleLength b n = (b.setWidth 16 <<< 8) ||| (n.extractLsb' 0 8).setWidth 16 := rfl

/-- Settles O20, one row of R17's table after the other. -/
theorem successorOfEveryPosition : Obligations.SuccessorOfEveryPosition := by
  intro s t b h
  cases hp : s.framer.position with
  | waitSync =>
    rw [presentByte_waitSync hp] at h
    split at h <;> cases h <;> simp [*]
  | getLengthLow =>
    rw [presentByte_getLengthLow hp] at h
    cases h
    rfl
  | getLengthHigh =>
    simp only [← assembleLength_eq]
    rw [presentByte_getLengthHigh hp] at h
    split at h <;> cases h <;> simp [*]
  | getHeaderCrc =>
    rw [presentByte_getHeaderCrc hp] at h
    split at h <;> cases h <;> simp [*]
  | waitDataSync =>
    rw [presentByte_waitDataSync hp] at h
    split at h <;> cases h <;> simp +contextual [*]
  | getData =>
    rw [presentByte_getData hp] at h
    rw [collectByte_position h, hp]
    exact ⟨fun hmore => if_neg (by bv_omega), fun hlast => if_pos (by bv_omega)⟩
  | getFooterCrc =>
    rw [presentByte_getFooterCrc hp] at h
    split at h <;> cases h <;> simp [*]
  | getStopByte =>
    rw [presentByte_getStopByte hp] at h
    split at h
    · obtain ⟨hreset, hpacket⟩ := acceptPacket_reset h
      simp [*]
    · cases h
      simp [*]

/-! ### `WaitSync` means the reset state -/

/-- A byte whose step puts something out ends its frame (R34). -/
theorem presentByte_reset_of_output_ne {s t : State} {b : Byte} (h : presentByte b s = .next t)
    (ho : t.output ≠ s.output) : t.framer = Framer.reset := by
  obtain rfl | hreset | ⟨-, hsilent⟩ := presentByte_framer_cases h
  · exact absurd rfl ho
  · exact hreset
  · exact absurd hsilent ho

/-- A step into `WaitSync` is one that resets, one that skips a byte there, or one that leaves the framer alone. A kind decode
keeps the position and finds no payload byte in the reset state, so it is none of them. -/
theorem step_keeps_waitSync_reset {s t : State} (hs : s.framer.position = .waitSync → s.framer = Framer.reset)
    (h : step s = .next t) (ht : t.framer.position = .waitSync) : t.framer = Framer.reset := by
  obtain ⟨b, rest, -, hb⟩ | ⟨v, hv, hkind⟩ | hreset | hsame := step_framer_cases h
  · obtain rfl | hreset | ⟨hinside, -⟩ := presentByte_framer_cases hb
    · exact hs ht
    · exact hreset
    · exact absurd ht hinside
  · have hf : s.framer = Framer.reset := hs (by rwa [hkind, Framer.withKind_position] at ht)
    obtain ⟨hpos, -⟩ := memRead_eq_ok.mp hv
    simp [hf] at hpos
  · exact hreset
  · rw [hsame] at ht ⊢
    exact hs ht

/-- Settles O41, the four parts of R34. -/
theorem waitSyncMeansResetState : Obligations.WaitSyncMeansResetState := by
  refine ⟨rfl, fun s t h => ?_, fun s t b => presentByte_reset_of_output_ne, fun s t => step_keeps_waitSync_reset⟩
  cases h
  rfl

/-! ### Reset and the numbers of the positions -/

/-- Settles O1: the reset values of R33, over an empty buffer. -/
theorem resetLeavesTheSpecValues : Obligations.ResetLeavesTheSpecValues :=
  ⟨rfl, rfl, Memory.read_nil⟩

/-- The position that a 3-bit code stands for: the inverse of `positionCode`. -/
def positionOfCode (v : BitVec 3) : Position :=
  match v.toNat with
  | 0 => .waitSync
  | 1 => .getLengthLow
  | 2 => .getLengthHigh
  | 3 => .getHeaderCrc
  | 4 => .waitDataSync
  | 5 => .getData
  | 6 => .getFooterCrc
  | _ => .getStopByte

theorem positionOfCode_positionCode (p : Position) : positionOfCode (positionCode p) = p := by
  cases p <;> rfl

theorem positionCode_positionOfCode : ∀ v : BitVec 3, positionCode (positionOfCode v) = v := by decide

/-- Settles O56: the numbers by their definition, the bijection by the inverse. -/
theorem positionNumbers : Obligations.PositionNumbers :=
  ⟨⟨rfl, rfl, rfl, rfl, rfl, rfl, rfl, rfl⟩,
    Function.bijective_iff_has_inverse.mpr
      ⟨positionOfCode, positionOfCode_positionCode, positionCode_positionOfCode⟩⟩

end Sys2Proof.Machine
end

section
/-! The statement about the order of the bytes of the length field on the wire (spec/20_memory.md). -/

namespace Sys2Proof.Machine

/-! ### One byte of a run -/

/-- A run on a byte and a rest is the step on the byte and then the run on the rest (R120). -/
theorem runBytes_cons {s t u : State} {b : Byte} {offset : Nat} {rest : List Byte} {outs : List (Nat × Output)}
    (hstep : presentByte b s = .next t) (hrest : runBytes (offset + 1) rest t = .next (outs, u)) :
    runBytes offset (b :: rest) s = .next (newOutputs offset s t ++ outs, u) := by
  simp only [runBytes, hstep, hrest]

theorem newOutputs_of_output_eq {s t : State} {offset : Nat} (h : t.output = s.output) : newOutputs offset s t = [] := by
  simp [newOutputs, h]

/-- A step that puts nothing out passes a run's outputs on unchanged. -/
theorem runBytes_cons_silent {s t u : State} {b : Byte} {offset : Nat} {rest : List Byte} {outs : List (Nat × Output)}
    (hstep : presentByte b s = .next t) (hsilent : t.output = s.output)
    (hrest : runBytes (offset + 1) rest t = .next (outs, u)) : runBytes offset (b :: rest) s = .next (outs, u) := by
  rw [runBytes_cons hstep hrest, newOutputs_of_output_eq hsilent, List.nil_append]

/-! ### The two length bytes -/

@[simp] theorem lowByte_lengthFromLow (lo : Byte) : lowByte (lengthFromLow lo) = lo := by
  apply BitVec.eq_of_toNat_eq
  simp only [lowByte, lengthFromLow, BitVec.extractLsb'_toNat, BitVec.truncate_eq_setWidth, BitVec.toNat_setWidth,
    Nat.shiftRight_zero]
  omega

/-- A high byte over a stored low one: the two bytes do not overlap, so the `|` of R86 adds them. -/
theorem assembleLength_toNat (hi : Byte) (declared : Half) :
    (assembleLength hi declared).toNat = (lowByte declared).toNat + 256 * hi.toNat := by
  have hlow : (lowByte declared).toNat < 2 ^ 8 := (lowByte declared).isLt
  have hhi : hi.toNat < 2 ^ 8 := hi.isLt
  have hshift : hi.toNat <<< 8 < 2 ^ 16 := by rw [Nat.shiftLeft_eq]; omega
  calc (assembleLength hi declared).toNat
      = hi.toNat <<< 8 ||| (lowByte declared).toNat := by
        simp only [assembleLength, BitVec.truncate_eq_setWidth, BitVec.toNat_or, BitVec.toNat_shiftLeft,
          BitVec.toNat_setWidth]
        rw [Nat.mod_eq_of_lt (by omega : hi.toNat < 2 ^ 16), Nat.mod_eq_of_lt hshift,
          Nat.mod_eq_of_lt (by omega : (lowByte declared).toNat < 2 ^ 16)]
    _ = hi.toNat <<< 8 + (lowByte declared).toNat := (Nat.shiftLeft_add_eq_or_of_lt hlow _).symm
    _ = (lowByte declared).toNat + 256 * hi.toNat := by rw [Nat.shiftLeft_eq]; omega

/-- The wire order of R39 as a number. -/
theorem assembleLength_lengthFromLow_toNat (lo hi : Byte) :
    (assembleLength hi (lengthFromLow lo)).toNat = lo.toNat + 256 * hi.toNat := by
  rw [assembleLength_toNat, lowByte_lengthFromLow]

/-- `LH.OK`: the assembled length is within `MAX_LEN` (R86). -/
theorem presentByte_getLengthHigh_of_fits {s : State} {b : Byte} (h : s.framer.position = .getLengthHigh)
    (hfits : (assembleLength b s.framer.declaredLength).toNat ≤ s.cfg.maxLen) :
    presentByte b s =
      .next (s.withFramer
        ((s.framer.withDeclaredLength (assembleLength b s.framer.declaredLength)).goto .getHeaderCrc)) :=
  (presentByte_getLengthHigh h).trans (if_pos hfits)

/-- Settles O55: the first byte is stored, the second completes the length (R85, R86), and both steps are silent. -/
theorem lengthIsLittleEndian : Obligations.LengthIsLittleEndian := by
  intro s lo hi hp hbound
  have hlength := assembleLength_lengthFromLow_toNat lo hi
  have hlow := presentByte_getLengthLow (b := lo) hp
  have hhigh := presentByte_getLengthHigh_of_fits (b := hi)
    (s := s.withFramer ((s.framer.withDeclaredLength (lengthFromLow lo)).goto .getLengthHigh)) rfl
    (hlength.trans_le hbound)
  exact ⟨_, runBytes_cons_silent hlow rfl (runBytes_cons_silent hhigh rfl rfl), rfl, hlength⟩

end Sys2Proof.Machine
end

section
/-! The statements about the CRC-8 operations: the values of the pure ones, and what the operations on the stand-alone `crc`
write (spec/40_crc8.md). -/

namespace Sys2Proof.Machine

/-! ### The pure operations -/

/-- The loop of R72 is the library's iterate. -/
theorem crcSteps_eq_iterate (n : Nat) (t : Byte) : crcSteps n t = crcStep^[n] t := by
  induction n generalizing t with
  | zero => rfl
  | succ n ih => rw [crcSteps, ih, Function.iterate_succ_apply]

@[simp] theorem crcCalc_nil (seed : Byte) : crcCalc [] seed = seed := rfl

/-- The first byte is folded into the seed (R73). -/
@[simp] theorem crcCalc_cons (b : Byte) (data : List Byte) (seed : Byte) :
    crcCalc (b :: data) seed = crcCalc data (crcUpdate seed b) := rfl

/-- Settles O21: the definitions of R71 and R73, and R72's loop as eight iterates of the step. -/
theorem pureChecksumOperations : Obligations.PureChecksumOperations :=
  ⟨fun _ => rfl, fun c b => crcSteps_eq_iterate 8 (c ^^^ b), fun _ _ => rfl, fun _ => rfl⟩

/-! ### The operations on the stand-alone register -/

section
variable (s : State) (v b : Byte)

theorem exec_crcClr : exec .crcClr s = .next (s.withCrc 0x00#8) := rfl

theorem exec_crcLoad : exec (.crcLoad v) s = .next (s.withCrc v) := rfl

theorem exec_crcUpd : exec (.crcUpd b) s = .next (s.withCrc (crcUpdate s.crc b)) := rfl

end

/-- Settles O28: both are writes of `crc` alone. -/
theorem checksumRegisterOperations : Obligations.ChecksumRegisterOperations :=
  ⟨exec_crcClr, exec_crcLoad⟩

/-! ### A sequence of register operations -/

section
variable {s t : State} {x : Input} {rest : List Input} {i : Instr}

/-- A step with an input presented runs the instruction that the input stands for (R11, R64). -/
theorem step_of_decode (hin : s.input = x :: rest) (hd : decode s.ctx x = .ok i) :
    step s = exec i (s.withInput rest) := by
  have hfetch : fetch s = some (x, s.withInput rest) := fetch_eq_some.mpr ⟨rest, hin, rfl⟩
  have hctx : (s.withInput rest).ctx = s.ctx := rfl
  simp only [step, hfetch, hctx, hd]

theorem runSteps_succ_of_step (n : Nat) (h : step s = .next t) : runSteps (n + 1) s = runSteps n t := by
  simp only [runSteps, h]

end

/-- Over a stream of `CRC8.UPD` the register folds the bytes in order, from whatever it holds at the start. -/
theorem runSteps_crcUpd (data : List Byte) (s : State) (hin : s.input = data.map Input.crcUpd) :
    runSteps data.length s = .next ((s.withInput []).withCrc (crcCalc data s.crc)) := by
  induction data generalizing s with
  | nil =>
    have hs : s = s.withInput [] := (State.withInput_input_self s).symm.trans (congrArg s.withInput hin)
    rw [crcCalc_nil]
    exact congrArg Host.Outcome.next hs
  | cons b data ih =>
    have hstep : step s = .next ((s.withInput (data.map Input.crcUpd)).withCrc (crcUpdate s.crc b)) :=
      (step_of_decode hin rfl).trans (exec_crcUpd _ b)
    calc runSteps (data.length + 1) s
        = runSteps data.length ((s.withInput (data.map Input.crcUpd)).withCrc (crcUpdate s.crc b)) :=
          runSteps_succ_of_step _ hstep
      _ = .next ((s.withInput []).withCrc (crcCalc data (crcUpdate s.crc b))) := ih _ rfl
      _ = .next ((s.withInput []).withCrc (crcCalc (b :: data) s.crc)) := by rw [crcCalc_cons]

/-- Settles O29: the load sets the seed, and the updates fold the bytes from there. -/
theorem checksumRegisterFoldsAList : Obligations.ChecksumRegisterFoldsAList := by
  refine ⟨exec_crcUpd, fun s v data hin => ?_⟩
  have hload : step s = .next ((s.withInput (data.map Input.crcUpd)).withCrc v) :=
    (step_of_decode hin rfl).trans (exec_crcLoad _ v)
  calc runSteps (1 + data.length) s
      = runSteps (data.length + 1) s := by rw [Nat.add_comm]
    _ = runSteps data.length ((s.withInput (data.map Input.crcUpd)).withCrc v) := runSteps_succ_of_step _ hload
    _ = .next { s with input := [], crc := crcCalc data v } := runSteps_crcUpd data _ rfl

end Sys2Proof.Machine
end

section
/-! The statements about the framer steps of the header phase: what each class writes, and which byte is of which class in
its position (spec/41_framer_header.md). -/

namespace Sys2Proof.Machine

/-! ### What the classes of the header phase do -/

section
variable (s : State) (b : Byte)

theorem exec_wsSync : exec .wsSync s = .next (s.withFramer (Framer.reset.goto .getLengthLow)) := rfl

theorem exec_wsSkip : exec (.wsSkip b) s = .next s := rfl

theorem exec_llStore :
    exec (.llStore b) s =
      .next (s.withFramer ((s.framer.withDeclaredLength (lengthFromLow b)).goto .getLengthHigh)) := rfl

theorem exec_lhOk :
    exec (.lhOk b) s =
      .next (s.withFramer
        ((s.framer.withDeclaredLength (assembleLength b s.framer.declaredLength)).goto .getHeaderCrc)) := rfl

theorem exec_lhTooLarge : exec (.lhTooLarge b) s = .next (raiseDrop .frameTooLarge s) := rfl

theorem exec_hcOk :
    exec (.hcOk b) s = .next (s.withFramer ((s.framer.withHeaderCrc b).goto .waitDataSync)) := rfl

theorem exec_hcBad : exec (.hcBad b) s = .next (raiseDrop .headerCrcMismatch s) := rfl

theorem exec_dsOk : exec .dsOk s = .next (s.withFramer (s.framer.goto .getData)) := rfl

theorem exec_dsEmpty : exec .dsEmpty s = .next (s.withFramer (s.framer.goto .getFooterCrc)) := rfl

theorem exec_dsBad : exec (.dsBad b) s = .next (raiseDrop .dataSyncMismatch s) := rfl

end

/-! ### The two shared steps of the proofs: the outcome of a drop, and running a byte's class -/

section
variable {s : State} {b : Byte} {i : Instr}

/-- An instruction whose meaning is `raise Drop(c)` leaves the reset framer and the one report (R131). -/
theorem exists_reset_and_report_of_exec_raiseDrop {c : DropCause} (h : exec i s = .next (raiseDrop c s)) :
    ∃ t : State, exec i s = .next t ∧ t.framer = Framer.reset ∧ t.output = s.output ++ [.drop c] :=
  ⟨raiseDrop c s, h, raiseDrop_framer c s, raiseDrop_output c s⟩

/-- A byte of class `i` runs the meaning of `i` (R64). -/
theorem presentByte_of_decodeByte (h : decodeByte s.ctx b = i) : presentByte b s = exec i s := by
  rw [presentByte_eq, h]

end

/-! ### The five positions of the header phase -/

/-- Settles O5: `WS.SYNC` writes the reset registers of R33 but for `state`, and the byte `0xFA` alone is of that class. -/
theorem syncStartsAFrameAndOthersAreSkipped : Obligations.SyncStartsAFrameAndOthersAreSkipped := by
  refine ⟨exec_wsSync, exec_wsSkip, fun s hp => ?_, fun s b hp hb => ?_⟩
  · exact presentByte_of_decodeByte ((decodeByte_waitSync hp).trans (if_pos rfl))
  · exact presentByte_of_decodeByte ((decodeByte_waitSync hp).trans (if_neg hb))

/-- Settles O6: the class `LL.STORE` has no condition on the byte. -/
theorem lowLengthByteIsStored : Obligations.LowLengthByteIsStored :=
  ⟨exec_llStore, fun _ _ hp => presentByte_of_decodeByte (decodeByte_getLengthLow hp)⟩

/-- Settles O7: the statement's length is the assembled one, on which the class of the byte turns. -/
theorem highLengthByteCompletesOrDrops : Obligations.HighLengthByteCompletesOrDrops := by
  intro s b l hl
  obtain rfl : l = assembleLength b s.framer.declaredLength := hl.trans (assembleLength_eq b _).symm
  refine ⟨exec_lhOk s b, exists_reset_and_report_of_exec_raiseDrop (exec_lhTooLarge s b),
    fun hp hfits => ?_, fun hp hlong => ?_⟩
  · exact presentByte_of_decodeByte ((decodeByte_getLengthHigh hp).trans (if_pos hfits))
  · exact presentByte_of_decodeByte ((decodeByte_getLengthHigh hp).trans (if_neg hlong.not_ge))

/-- The header checksum of R94 over the sync byte and the two length bytes, written out. -/
theorem headerCrcOf_eq (n : Half) : headerCrcOf n = crc8 [0xFA#8, n.extractLsb' 0 8, n.extractLsb' 8 8] := rfl

/-- Settles O8: the statement's checksum is the computed one, with which the byte is compared. -/
theorem headerChecksumIsCompared : Obligations.HeaderChecksumIsCompared := by
  intro s b h hh
  obtain rfl : h = headerCrcOf s.framer.declaredLength := hh.trans (headerCrcOf_eq _).symm
  refine ⟨exec_hcOk s b, exists_reset_and_report_of_exec_raiseDrop (exec_hcBad s b),
    fun hp heq => ?_, fun hp hne => ?_⟩
  · exact presentByte_of_decodeByte ((decodeByte_getHeaderCrc hp).trans (if_pos heq))
  · exact presentByte_of_decodeByte ((decodeByte_getHeaderCrc hp).trans (if_neg hne))

/-- Settles O9: the class turns on the byte first and, for `0xFB`, on whether a payload is declared. -/
theorem dataSyncIsRequired : Obligations.DataSyncIsRequired := by
  refine ⟨exec_dsOk, exec_dsEmpty, fun s b => exists_reset_and_report_of_exec_raiseDrop (exec_dsBad s b),
    fun s hp => ?_, fun s b hp hb => ?_⟩
  · have hsync := (decodeByte_waitDataSync (b := 0xFB#8) hp).trans (if_pos rfl)
    exact ⟨fun hpayload => presentByte_of_decodeByte (hsync.trans (if_neg hpayload)),
      fun hempty => presentByte_of_decodeByte (hsync.trans (if_pos hempty))⟩
  · exact presentByte_of_decodeByte ((decodeByte_waitDataSync hp).trans (if_neg hb))

end Sys2Proof.Machine
end

section
/-! The statements about the framer steps of the payload and footer phase: what a payload byte, a footer byte and a stop byte
do, and how little depends on `kind` (spec/42_framer_payload_footer.md). -/

namespace Sys2Proof.Machine

/-! ### What the classes of the payload and footer phase do -/

section
variable (s : State) (b : Byte)

theorem exec_gdMore : exec (.gdMore b) s = collectByte b s := rfl

theorem exec_gdLast : exec (.gdLast b) s = collectByte b s := rfl

theorem exec_fcOk :
    exec (.fcOk b) s = .next (s.withFramer ((s.framer.withFooterCrc b).goto .getStopByte)) := rfl

theorem exec_fcBad : exec (.fcBad b) s = .next (raiseDrop .dataCrcMismatch s) := rfl

theorem exec_sbOk : exec .sbOk s = acceptPacket s := rfl

theorem exec_sbBad : exec (.sbBad b) s = .next (raiseDrop .stopByteMismatch s) := rfl

end

/-! ### The three positions of the phase -/

/-- Settles O10: both classes run the one body, whose outcome `collectByte_next` gives register by register; the store is
read back by the laws of the buffer. -/
theorem payloadByteIsCollected : Obligations.PayloadByteIsCollected := by
  refine ⟨fun s b hroom => ?_, fun s b hp => ⟨fun hmore => ?_, fun hlast => ?_⟩⟩
  · have hcollect := (collectByte_next (b := b)).mpr ⟨hroom, rfl⟩
    exact ⟨_, (exec_gdMore s b).trans hcollect, (exec_gdLast s b).trans hcollect,
      Memory.read_write_same .., fun a ha => Memory.read_write_other _ b ha,
      rfl, rfl, rfl, rfl, rfl, rfl, rfl, rfl, rfl, rfl, rfl, rfl, rfl⟩
  · exact presentByte_of_decodeByte ((decodeByte_getData hp).trans (if_pos hmore))
  · exact presentByte_of_decodeByte ((decodeByte_getData hp).trans (if_neg hlast.not_lt))

/-- Settles O11: the class turns on the comparison with `run_crc`. -/
theorem dataChecksumIsCompared : Obligations.DataChecksumIsCompared := by
  intro s b
  refine ⟨exec_fcOk s b, exists_reset_and_report_of_exec_raiseDrop (exec_fcBad s b), fun hp heq => ?_, fun hp hne => ?_⟩
  · exact presentByte_of_decodeByte ((decodeByte_getFooterCrc hp).trans (if_pos heq))
  · exact presentByte_of_decodeByte ((decodeByte_getFooterCrc hp).trans (if_neg hne))

/-- A buffer that holds every byte below `received_length` is copied whole. -/
theorem memReadRange_of_read {f : Framer} {bytes : List Byte} (hlen : bytes.length = f.receivedLength.toNat)
    (hread : ∀ i < bytes.length, f.payload.read i = bytes[i]?) :
    memReadRange f 0 f.receivedLength.toNat = .ok bytes := by
  refine memReadRange_eq_ok.mpr ⟨hlen, fun i hi => ?_⟩
  rw [Nat.zero_add]
  exact memRead_eq_ok.mpr ⟨hlen ▸ hi, (hread i hi).trans (List.getElem?_eq_getElem hi)⟩

/-- Settles O12: with every byte there the acceptance goes through, and the class turns on the byte. -/
theorem stopByteEmitsOrDrops : Obligations.StopByteEmitsOrDrops := by
  refine ⟨fun s bytes hlen hread => ?_, fun s b => exists_reset_and_report_of_exec_raiseDrop (exec_sbBad s b),
    fun s hp => ?_, fun s b hp hb => ?_⟩
  · have haccept := acceptPacket_next.mpr ⟨bytes, memReadRange_of_read hlen hread, rfl⟩
    exact ⟨_, (exec_sbOk s).trans haccept, rfl, rfl⟩
  · exact presentByte_of_decodeByte ((decodeByte_getStopByte hp).trans (if_pos rfl))
  · exact presentByte_of_decodeByte ((decodeByte_getStopByte hp).trans (if_neg hb))

/-! ### What does not depend on `kind` -/

/-- The 252 reserved codes give no kind (R63). -/
theorem decodeKind_eq_none {v : Byte} (hrequest : v ≠ 0x0B#8) (hstream : v ≠ 0x0C#8) (hresponse : v ≠ 0x16#8)
    (herror : v ≠ 0x21#8) : decodeKind v = none := by
  simp [decodeKind, kindCode, hrequest, hstream, hresponse, herror]

/-- An output with the kind of a packet left out. -/
def Output.withoutKind : Output → Output
  | .packet p => .packet { p with kind := none }
  | o => o

/-- The machine with every kind left out: in the register and in the packets handed over. -/
def State.withoutKind (s : State) : State :=
  { s with framer := s.framer.withKind none, output := s.output.map Output.withoutKind }

theorem memReadRange_withKind (f : Framer) (k : Option Kind) (start n : Nat) :
    memReadRange (f.withKind k) start n = memReadRange f start n := by
  have hread (a : Nat) : memRead (f.withKind k) a = memRead f a := rfl
  induction n generalizing start with
  | zero => rfl
  | succ n ih => simp only [memReadRange, ih, hread]

section
variable {s t : State} (k : Option Kind)

/-- `kind` is overwritten or carried along by a payload byte, and read by nothing. -/
theorem collectByte_withKind {b : Byte} (h : collectByte b s = .next t) :
    ∃ u, collectByte b (s.withFramer (s.framer.withKind k)) = .next u ∧ u.withoutKind = t.withoutKind := by
  obtain ⟨hroom, rfl⟩ := collectByte_next.mp h
  exact ⟨_, collectByte_next.mpr ⟨hroom, rfl⟩, rfl⟩

/-- An acceptance copies `kind` into the packet and does nothing else with it. -/
theorem acceptPacket_withKind (h : acceptPacket s = .next t) :
    ∃ u, acceptPacket (s.withFramer (s.framer.withKind k)) = .next u ∧ u.withoutKind = t.withoutKind := by
  obtain ⟨bytes, hread, rfl⟩ := acceptPacket_next.mp h
  refine ⟨_, acceptPacket_next.mpr ⟨bytes, (memReadRange_withKind ..).trans hread, rfl⟩, ?_⟩
  simp [State.withoutKind, State.withFramer, State.emit, Output.withoutKind, packetOf, Framer.markValid]

/-- No meaning depends on the register `kind` (R105). -/
theorem exec_withKind {i : Instr} (h : exec i s = .next t) :
    ∃ u, exec i (s.withFramer (s.framer.withKind k)) = .next u ∧ u.withoutKind = t.withoutKind := by
  cases i with
  | gdMore | gdLast => exact collectByte_withKind k h
  | sbOk => exact acceptPacket_withKind k h
  | frame p =>
    obtain ⟨hbound, rfl⟩ := execFrame_next.mp h
    exact ⟨_, execFrame_next.mpr ⟨hbound, rfl⟩, rfl⟩
  | wsSync | wsSkip | llStore | lhOk | lhTooLarge | hcOk | hcBad | dsOk | dsEmpty | dsBad | fcOk | fcBad | sbBad
  | crcStep | crcUpdate | crcCalc | crcClr | crcLoad | crcUpd | crcRead | kindRequest | kindStream | kindResponse
  | kindError | kindNone | reset | hdr =>
    cases h
    exact ⟨_, rfl, rfl⟩

/-- A byte's class does not depend on `kind` either, so neither does its step. -/
theorem presentByte_withKind {b : Byte} (h : presentByte b s = .next t) :
    ∃ u, presentByte b (s.withFramer (s.framer.withKind k)) = .next u ∧ u.withoutKind = t.withoutKind := by
  have hctx : (s.withFramer (s.framer.withKind k)).ctx = s.ctx := rfl
  rw [presentByte_eq] at h
  rw [presentByte_eq, hctx]
  exact exec_withKind k h

end

/-- Settles O13: the table of R105, the first payload byte, and two runs that differ in `kind` alone. -/
theorem kindIsDecodedFromTheFirstPayloadByte : Obligations.KindIsDecodedFromTheFirstPayloadByte := by
  refine ⟨⟨rfl, rfl, rfl, rfl, fun _ => decodeKind_eq_none⟩, fun s b hp hfirst hroom => ?_, fun s t b k h => ?_⟩
  · have hindex : s.framer.receivedLength.toNat < s.cfg.capacity := by simpa [hfirst] using hroom
    exact ⟨_, (presentByte_getData hp).trans (collectByte_next.mpr ⟨hindex, rfl⟩), if_pos (by simp [hfirst])⟩
  · obtain ⟨u, hu, heq⟩ := presentByte_withKind k h
    exact ⟨u, hu, (congrArg State.framer heq :), (congrArg State.output heq :), (congrArg State.cfg heq :),
      (congrArg State.crc heq :), (congrArg State.input heq :)⟩

end Sys2Proof.Machine
end

section
/-! The statement about a whole frame: the header, the payload and the footer of `FRAME(p)`, run one after the other from
the reset state (spec/42_framer_payload_footer.md, R113). -/

namespace Sys2Proof.Machine

/-! ### Runs in parts -/

theorem runBytes_cons_eq_next {s u : State} {b : Byte} {offset : Nat} {rest : List Byte} {outs : List (Nat × Output)} :
    runBytes offset (b :: rest) s = .next (outs, u) ↔
      ∃ t outs', presentByte b s = .next t ∧ runBytes (offset + 1) rest t = .next (outs', u) ∧
        outs = newOutputs offset s t ++ outs' := by
  constructor
  · intro h
    simp only [runBytes] at h
    split at h
    · cases h
    · cases h
    · rename_i t hstep
      split at h
      · cases h
      · cases h
      · rename_i outs' v hrest
        cases h
        exact ⟨t, outs', hstep, hrest, rfl⟩
  · rintro ⟨t, outs', hstep, hrest, rfl⟩
    exact runBytes_cons hstep hrest

/-- A run on two streams in a row is the run on the first and then the run on the second (R121). -/
theorem runBytes_append {s t u : State} {offset : Nat} {xs ys : List Byte} {outs₁ outs₂ : List (Nat × Output)}
    (hxs : runBytes offset xs s = .next (outs₁, t)) (hys : runBytes (offset + xs.length) ys t = .next (outs₂, u)) :
    runBytes offset (xs ++ ys) s = .next (outs₁ ++ outs₂, u) := by
  induction xs generalizing offset s outs₁ with
  | nil =>
    cases hxs
    exact hys
  | cons b xs ih =>
    obtain ⟨v, outs', hstep, hrest, rfl⟩ := runBytes_cons_eq_next.mp hxs
    have hoffset : offset + (b :: xs).length = offset + 1 + xs.length := by rw [List.length_cons]; omega
    rw [hoffset] at hys
    rw [List.append_assoc]
    exact runBytes_cons hstep (ih hrest hys)

/-! ### The length field of an encoded frame -/

theorem assembleLength_highByte_lowByte (n : Half) : assembleLength (highByte n) (lengthFromLow (lowByte n)) = n := by
  apply BitVec.eq_of_toNat_eq
  have hn : n.toNat < 65536 := n.isLt
  rw [assembleLength_lengthFromLow_toNat]
  simp only [lowByte, highByte, BitVec.extractLsb'_toNat, Nat.shiftRight_eq_div_pow]
  omega

theorem lowByte_ofNat (n : Nat) : lowByte (BitVec.ofNat 16 n) = BitVec.ofNat 8 n := by
  apply BitVec.eq_of_toNat_eq
  simp only [lowByte, BitVec.extractLsb'_toNat, BitVec.toNat_ofNat, Nat.shiftRight_zero]
  omega

theorem highByte_ofNat (n : Nat) : highByte (BitVec.ofNat 16 n) = BitVec.ofNat 8 (n / 256) := by
  apply BitVec.eq_of_toNat_eq
  simp only [highByte, BitVec.extractLsb'_toNat, BitVec.toNat_ofNat, Nat.shiftRight_eq_div_pow]
  omega

/-! ### One more byte at the end of a list -/

theorem crc8_concat (q : List Byte) (b : Byte) : crc8 (q ++ [b]) = crcUpdate (crc8 q) b := by
  simp only [crc8, crcCalc, List.foldl_concat]

theorem getElem?_concat_eq_ite (q : List Byte) (b : Byte) (k : Nat) :
    (q ++ [b])[k]? = if q.length = k then some b else q[k]? := by
  split
  next hk =>
    subst hk
    exact List.getElem?_concat_length
  next hk =>
    rcases Nat.lt_or_gt_of_ne hk with hpast | hbefore
    · rw [List.getElem?_eq_none hpast.le, List.getElem?_eq_none (by simpa using hpast)]
    · exact List.getElem?_append_left hbefore

/-- A count that does not wrap is told from another by its number. -/
theorem ofNat_add_one_eq_iff {m k : Nat} (hm : m < 65535) (hk : k < 65535) :
    BitVec.ofNat 16 m + 1 = BitVec.ofNat 16 (k + 1) ↔ m = k := by
  have hone : (1 : BitVec 16).toNat = 1 := rfl
  rw [← BitVec.toNat_inj]
  simp only [BitVec.toNat_add, BitVec.toNat_ofNat, hone]
  omega

/-! ### The framer in the payload phase -/

/-- The buffer that holds the bytes `q` from index 0 on. -/
def Memory.ofBytes (q : List Byte) : Memory := (List.range q.length).zip q

theorem Memory.ofBytes_map_fst (q : List Byte) : (Memory.ofBytes q).map Prod.fst = List.range q.length :=
  List.map_fst_zip (by simp)

theorem Memory.ofBytes_map_snd (q : List Byte) : (Memory.ofBytes q).map Prod.snd = q :=
  List.map_snd_zip (by simp)

/-- Every index reads as the list of the bytes held. -/
theorem Memory.ofBytes_read {q : List Byte} {i : Nat} (hi : i < q.length) : (Memory.ofBytes q).read i = q[i]? := by
  have hlen : (Memory.ofBytes q).length = q.length := by simp [Memory.ofBytes]
  have hidx : (Memory.ofBytes q).map Prod.fst = List.range' 0 (Memory.ofBytes q).length := by
    rw [Memory.ofBytes_map_fst, hlen, List.range_eq_range']
  rw [← Nat.zero_add i, Memory.read_of_range' _ 0 i hidx (hlen ▸ hi), Memory.ofBytes_map_snd, Nat.zero_add]

/-- A byte stored at the next free index extends the bytes held (R99). -/
theorem Memory.ofBytes_write (q : List Byte) (b : Byte) :
    (Memory.ofBytes q).write q.length b = Memory.ofBytes (q ++ [b]) := by
  have hbelow : ∀ e ∈ Memory.ofBytes q, e.1 < q.length := fun e he =>
    List.mem_range.mp (Memory.ofBytes_map_fst q ▸ List.mem_map_of_mem he)
  rw [Memory.write_eq_append _ _ _ hbelow]
  simp [Memory.ofBytes, List.range_succ, List.zip_append]

/-- The framer that has accepted the header of a frame declaring `n` and collected the payload bytes `q` (R98). -/
def Framer.midFrame (n : Half) (q : List Byte) : Framer :=
  { position := if n = BitVec.ofNat 16 q.length then .getFooterCrc else .getData
    declaredLength := n
    receivedLength := BitVec.ofNat 16 q.length
    headerCrc := headerCrcOf n
    footerCrc := 0
    runCrc := crc8 q
    kind := q[0]?.bind decodeKind
    sequence := q[1]?
    valid := false
    payload := Memory.ofBytes q }

/-! ### The three parts of a frame -/

section
variable {s : State} {n : Half} {q : List Byte}

/-- The post-condition of the header phase: no payload byte collected yet, and nothing put out (R97). -/
theorem runBytes_headerBytes (offset : Nat) (hs : s.framer = Framer.reset) (hn : n.toNat ≤ s.cfg.maxLen) :
    runBytes offset (headerBytes n) s = .next ([], s.withFramer (Framer.midFrame n [])) := by
  have hlength := assembleLength_highByte_lowByte n
  have hsync : presentByte syncByte s = .next (s.withFramer (Framer.reset.goto .getLengthLow)) :=
    presentByte_waitSync (congrArg Framer.position hs)
  have hlow : presentByte (lowByte n) (s.withFramer (Framer.reset.goto .getLengthLow)) =
      .next (s.withFramer ((Framer.reset.withDeclaredLength (lengthFromLow (lowByte n))).goto .getLengthHigh)) :=
    presentByte_getLengthLow rfl
  have hhigh : presentByte (highByte n)
      (s.withFramer ((Framer.reset.withDeclaredLength (lengthFromLow (lowByte n))).goto .getLengthHigh)) =
      .next (s.withFramer ((Framer.reset.withDeclaredLength n).goto .getHeaderCrc)) := by
    rw [presentByte_getLengthHigh rfl, State.withFramer_framer, Framer.goto_declaredLength,
      Framer.withDeclaredLength_declaredLength, hlength]
    exact if_pos hn
  have hcheck : presentByte (headerCrcOf n) (s.withFramer ((Framer.reset.withDeclaredLength n).goto .getHeaderCrc)) =
      .next (s.withFramer
        (((Framer.reset.withDeclaredLength n).withHeaderCrc (headerCrcOf n)).goto .waitDataSync)) :=
    (presentByte_getHeaderCrc rfl).trans (if_pos rfl)
  have hdata : presentByte dsyncByte (s.withFramer
        (((Framer.reset.withDeclaredLength n).withHeaderCrc (headerCrcOf n)).goto .waitDataSync)) =
      .next (s.withFramer (Framer.midFrame n [])) :=
    (presentByte_waitDataSync rfl).trans (if_pos rfl)
  exact runBytes_cons_silent hsync rfl <| runBytes_cons_silent hlow rfl <| runBytes_cons_silent hhigh rfl <|
    runBytes_cons_silent hcheck rfl <| runBytes_cons_silent hdata rfl rfl

theorem Framer.midFrame_position_getData (hq : q.length < n.toNat) : (Framer.midFrame n q).position = .getData := by
  refine if_neg fun h => hq.ne ?_
  rw [h, BitVec.toNat_ofNat, Nat.mod_eq_of_lt (hq.trans n.isLt)]

/-- What `GetData` collects from a frame in progress is the frame in progress with one byte more, field by field: the count,
the decodes of R105 and R106, the fold of R100, the end test of R101 and the store. -/
theorem Framer.midFrame_concat (b : Byte) (hq : q.length < n.toNat) :
    Framer.midFrame n (q ++ [b]) =
      { position := if BitVec.ofNat 16 q.length + 1 = n then .getFooterCrc else .getData
        declaredLength := n
        receivedLength := BitVec.ofNat 16 q.length + 1
        headerCrc := headerCrcOf n
        footerCrc := 0
        runCrc := crcUpdate (crc8 q) b
        kind := if BitVec.ofNat 16 q.length + 1 = 1 then decodeKind b else q[0]?.bind decodeKind
        sequence := if BitVec.ofNat 16 q.length + 1 = 2 then some b else q[1]?
        valid := false
        payload := (Memory.ofBytes q).write q.length b } := by
  have hcount : BitVec.ofNat 16 (q ++ [b]).length = BitVec.ofNat 16 q.length + 1 := by
    rw [List.length_append, BitVec.ofNat_add]
    rfl
  have hq16 : q.length < 65535 := by have := n.isLt; omega
  have hfirst : BitVec.ofNat 16 q.length + 1 = 1 ↔ q.length = 0 := ofNat_add_one_eq_iff hq16 (by decide)
  have hsecond : BitVec.ofNat 16 q.length + 1 = 2 ↔ q.length = 1 := ofNat_add_one_eq_iff hq16 (by decide)
  have hkind : (q ++ [b])[0]?.bind decodeKind = if q.length = 0 then decodeKind b else q[0]?.bind decodeKind := by
    rw [getElem?_concat_eq_ite]
    split <;> rfl
  have hsequence : (q ++ [b])[1]? = if q.length = 1 then some b else q[1]? := getElem?_concat_eq_ite q b 1
  simp only [Framer.midFrame, hcount, hfirst, hsecond, hkind, hsequence, crc8_concat, Memory.ofBytes_write,
    eq_comm (a := n)]

/-- The byte after the bytes `q` is collected, and ends the payload when it completes the declared length (R98, R101). -/
theorem presentByte_midFrame (b : Byte) (hs : s.framer = Framer.midFrame n q)
    (hq : q.length < n.toNat) (hn : n.toNat ≤ s.cfg.capacity) :
    presentByte b s = .next (s.withFramer (Framer.midFrame n (q ++ [b]))) := by
  have hpos := Framer.midFrame_position_getData hq
  have hcount : (Framer.midFrame n q).receivedLength.toNat = q.length := Nat.mod_eq_of_lt (hq.trans n.isLt)
  rw [presentByte_getData (hs ▸ hpos), collectByte_next, Framer.midFrame_concat b hq, hs, hpos, hcount]
  exact ⟨hq.trans_le hn, rfl⟩

/-- The payload phase: the bytes are collected one by one, in order, and nothing is put out. -/
theorem runBytes_payload (offset : Nat) (p : List Byte) (hs : s.framer = Framer.midFrame n q)
    (hp : q.length + p.length ≤ n.toNat) (hn : n.toNat ≤ s.cfg.capacity) :
    runBytes offset p s = .next ([], s.withFramer (Framer.midFrame n (q ++ p))) := by
  induction p generalizing offset s q with
  | nil =>
    rw [List.append_nil, ← hs]
    rfl
  | cons b p ih =>
    rw [List.length_cons] at hp
    have hstep := presentByte_midFrame b hs (by omega) hn
    have hrest := ih (s := s.withFramer (Framer.midFrame n (q ++ [b]))) (offset + 1) rfl
      (by simp only [List.length_append, List.length_singleton]; omega) hn
    rw [List.append_assoc] at hrest
    exact runBytes_cons_silent hstep rfl hrest

/-- The footer phase: the two bytes hand over the packet that carries the collected payload, at the stop byte, and reset the
framer (R103, R107 to R109). -/
theorem runBytes_footer (offset : Nat) (hs : s.framer = Framer.midFrame (BitVec.ofNat 16 q.length) q)
    (hq : q.length < 65536) :
    runBytes offset [crc8 q, stopByte] s =
      .next ([(offset + 1, .packet (packetFor q))], (s.emit (.packet (packetFor q))).withFramer Framer.reset) := by
  have hfooter : presentByte (crc8 q) s = .next (s.withFramer ((s.framer.withFooterCrc (crc8 q)).goto .getStopByte)) := by
    have hcheck : crc8 q = s.framer.runCrc := by rw [hs]; rfl
    have hpos : s.framer.position = .getFooterCrc := by rw [hs]; exact if_pos rfl
    exact (presentByte_getFooterCrc hpos).trans (if_pos hcheck)
  have hstop : presentByte stopByte (s.withFramer ((s.framer.withFooterCrc (crc8 q)).goto .getStopByte)) =
      .next ((s.emit (.packet (packetFor q))).withFramer Framer.reset) := by
    rw [hs, presentByte_getStopByte rfl]
    have hlen : q.length = (BitVec.ofNat 16 q.length).toNat := (Nat.mod_eq_of_lt hq).symm
    have hread := memReadRange_of_read (f := ((Framer.midFrame (BitVec.ofNat 16 q.length) q).withFooterCrc
      (crc8 q)).goto .getStopByte) hlen fun _ => Memory.ofBytes_read
    exact (if_pos rfl).trans (acceptPacket_next.mpr ⟨q, hread, rfl⟩)
  refine runBytes_cons_silent hfooter rfl ((runBytes_cons hstop rfl).trans ?_)
  simp [newOutputs]

end

/-! ### The whole frame -/

/-- A frame within the bound, from the reset state: one packet, at the last byte, and the reset state again (R113). -/
theorem runBytes_frameEncode (offset : Nat) {s : State} {p : List Byte} (hcfg : s.cfg.ok) (hs : s.framer = Framer.reset)
    (hp : p.length ≤ s.cfg.maxLen) :
    runBytes offset (frameEncode p) s =
      .next ([(offset + (p.length + 6), .packet (packetFor p))],
        (s.emit (.packet (packetFor p))).withFramer Framer.reset) := by
  obtain ⟨hcapacity, hmax⟩ := hcfg
  have hp16 : p.length < 65536 := by omega
  have hn : (BitVec.ofNat 16 p.length).toNat = p.length := Nat.mod_eq_of_lt hp16
  have hheader := runBytes_headerBytes offset hs (hn.trans_le hp)
  have hpayload := runBytes_payload (s := s.withFramer (Framer.midFrame (BitVec.ofNat 16 p.length) []))
    (offset + 5) p rfl (by simp [hn]) (hn.trans_le (hp.trans hcapacity))
  have hfooter := runBytes_footer (s := s.withFramer (Framer.midFrame (BitVec.ofNat 16 p.length) p))
    (offset + 5 + p.length) rfl hp16
  have hwhole := runBytes_append (runBytes_append hheader hpayload) (by
    rw [List.length_append, ← Nat.add_assoc]; exact hfooter)
  rw [show offset + (p.length + 6) = offset + 5 + p.length + 1 by omega]
  exact hwhole

/-- The header checksum of an encoded frame, over the two bytes of its length. -/
theorem headerCrcOf_ofNat (n : Nat) :
    headerCrcOf (BitVec.ofNat 16 n) = crc8 [0xFA#8, BitVec.ofNat 8 n, BitVec.ofNat 8 (n / 256)] := by
  rw [headerCrcOf, lowByte_ofNat, highByte_ofNat]
  rfl

/-- Settles O46: the packet of `runBytes_frameEncode`, with its header checksum written out. -/
theorem wellFormedFrameIsAccepted : Obligations.WellFormedFrameIsAccepted := by
  intro s p hcfg hs hp
  have hrun := runBytes_frameEncode 0 hcfg hs hp
  rw [Nat.zero_add, packetFor, headerCrcOf_ofNat] at hrun
  exact ⟨_, rfl, hrun⟩

end Sys2Proof.Machine
end

section
/-! The statements about the block's one exception: what a drop does, and which byte in which state raises which cause
(spec/60_exceptions.md). -/

namespace Sys2Proof.Machine

/-! ### What a failing class does (R131) -/

/-- The failing class of each cause, on the byte `b` (R126). -/
def failingClasses (b : Byte) : List (DropCause × Instr) :=
  [(.frameTooLarge, .lhTooLarge b), (.headerCrcMismatch, .hcBad b), (.dataSyncMismatch, .dsBad b),
    (.dataCrcMismatch, .fcBad b), (.stopByteMismatch, .sbBad b)]

theorem exec_of_mem_failingClasses (s : State) {b : Byte} {c : DropCause} {i : Instr} (h : (c, i) ∈ failingClasses b) :
    exec i s = .next (raiseDrop c s) := by
  simp only [failingClasses, List.mem_cons, Prod.mk.injEq, List.not_mem_nil, or_false] at h
  obtain ⟨rfl, rfl⟩ | ⟨rfl, rfl⟩ | ⟨rfl, rfl⟩ | ⟨rfl, rfl⟩ | ⟨rfl, rfl⟩ := h
  · exact exec_lhTooLarge s b
  · exact exec_hcBad s b
  · exact exec_dsBad s b
  · exact exec_fcBad s b
  · exact exec_sbBad s b

/-- Settles O16: every failing class is `raise Drop` of its cause, which leaves the reset framer over an empty buffer. -/
theorem dropResetsEveryRegister : Obligations.DropResetsEveryRegister := fun s _ c _ h =>
  ⟨raiseDrop c s, exec_of_mem_failingClasses s h, raiseDrop_output c s,
    rfl, rfl, rfl, rfl, rfl, rfl, rfl, rfl, rfl, Memory.read_nil, raiseDrop_cfg c s, raiseDrop_input c s⟩

/-! ### Which outcomes report a drop -/

/-- The outcome of a step from `s` is a next state with the report of `c` as the one new output. -/
def ReportsDrop (r : Result) (s : State) (c : DropCause) : Prop :=
  ∃ t : State, r = .next t ∧ t.output = s.output ++ [.drop c]

section
variable {r : Result} {s t : State} {b : Byte} {c d : DropCause}

theorem reportsDrop_raiseDrop : ReportsDrop (.next (raiseDrop d s)) s c ↔ d = c := by
  simp [ReportsDrop]

theorem not_reportsDrop_of_silent (h : t.output = s.output) : ¬ ReportsDrop (.next t) s c := by
  rintro ⟨_, ⟨⟩, hreport⟩
  simp [h] at hreport

/-- A write to the framer's registers puts nothing out. -/
theorem not_reportsDrop_withFramer (f : Framer) : ¬ ReportsDrop (.next (s.withFramer f)) s c :=
  not_reportsDrop_of_silent (State.withFramer_output ..)

theorem not_reportsDrop_collectByte : ¬ ReportsDrop (collectByte b s) s c := by
  rintro ⟨t, hcollect, hreport⟩
  simp [collectByte_output hcollect] at hreport

/-- The one output of an acceptance is a packet. -/
theorem not_reportsDrop_acceptPacket : ¬ ReportsDrop (acceptPacket s) s c := by
  rintro ⟨t, haccept, hreport⟩
  obtain ⟨-, p, hpacket⟩ := acceptPacket_reset haccept
  simp [hpacket] at hreport

/-- A check that raises `d` where it fails, and reports nothing where it passes, reports `d` exactly where it fails. -/
theorem reportsDrop_check {passes : Prop} [Decidable passes] (hr : ¬ ReportsDrop r s c) :
    ReportsDrop (if passes then r else .next (raiseDrop d s)) s c ↔ d = c ∧ ¬ passes := by
  split <;> simp [*, reportsDrop_raiseDrop]

end

/-! ### Each cause in its state, under its condition (R126) -/

/-- Settles O17, position by position: three positions report no drop, and each of the others makes the one check whose
failure raises the cause of that position. -/
theorem dropCausesArePrecise : Obligations.DropCausesArePrecise := by
  refine ⟨⟨rfl, rfl, rfl, rfl, rfl⟩, fun s b c => ?_⟩
  change ReportsDrop (presentByte b s) s c ↔ _
  simp only [← assembleLength_eq, ← headerCrcOf_eq]
  cases hp : s.framer.position with
  | waitSync =>
    have hnone : ¬ ReportsDrop (presentByte b s) s c := by
      rw [presentByte_waitSync hp]
      split
      · exact not_reportsDrop_withFramer _
      · exact not_reportsDrop_of_silent rfl
    cases c <;> simp [hnone]
  | getLengthLow =>
    have hnone : ¬ ReportsDrop (presentByte b s) s c := by
      rw [presentByte_getLengthLow hp]
      exact not_reportsDrop_withFramer _
    cases c <;> simp [hnone]
  | getLengthHigh =>
    rw [presentByte_getLengthHigh hp, reportsDrop_check (not_reportsDrop_withFramer _)]
    cases c <;> simp
  | getHeaderCrc =>
    rw [presentByte_getHeaderCrc hp, reportsDrop_check (not_reportsDrop_withFramer _)]
    cases c <;> simp
  | waitDataSync =>
    rw [presentByte_waitDataSync hp, reportsDrop_check (not_reportsDrop_withFramer _)]
    cases c <;> simp
  | getData =>
    rw [presentByte_getData hp]
    cases c <;> simp [not_reportsDrop_collectByte]
  | getFooterCrc =>
    rw [presentByte_getFooterCrc hp, reportsDrop_check (not_reportsDrop_withFramer _)]
    cases c <;> simp
  | getStopByte =>
    rw [presentByte_getStopByte hp, reportsDrop_check not_reportsDrop_acceptPacket]
    cases c <;> simp

end Sys2Proof.Machine
end

section
/-! The statements about the reset state: the reset event leaves it, and so does every byte that ends a frame
(spec/70_reset_and_hazards.md). -/

namespace Sys2Proof.Machine

/-! ### The reset event (R147) -/

theorem exec_reset (s : State) : exec .reset s = .next ((s.withFramer Framer.reset).withCrc 0x00#8) := rfl

/-- Settles O33: the event writes the framer and `crc` alone, and the step takes it off the stream and runs it. -/
theorem resetEventIsSilent : Obligations.ResetEventIsSilent := fun s =>
  ⟨exec_reset s, step_of_decode rfl rfl⟩

/-! ### The last byte of a run (R150) -/

section
variable {s t u : State} {offset k : Nat} {o : Output} {outs : List (Nat × Output)}

theorem eq_offset_of_mem_newOutputs (h : (k, o) ∈ newOutputs offset s t) : k = offset := by
  obtain ⟨_, -, htag⟩ := List.mem_map.mp h
  exact (congrArg Prod.fst htag).symm

theorem output_ne_of_mem_newOutputs (h : (k, o) ∈ newOutputs offset s t) : t.output ≠ s.output := fun hsilent => by
  simp [newOutputs_of_output_eq hsilent] at h

/-- An output tagged with the offset of the run's last byte comes from the step on that byte, since the bytes before it tag
theirs with smaller offsets; and a byte that puts something out ends its frame. -/
theorem runBytes_concat_framer_of_mem (bytes : List Byte) (b : Byte)
    (hrun : runBytes offset (bytes ++ [b]) s = .next (outs, u)) (hmem : (offset + bytes.length, o) ∈ outs) :
    u.framer = Framer.reset := by
  induction bytes generalizing offset s outs with
  | nil =>
    obtain ⟨t, outs', hstep, hrest, rfl⟩ := runBytes_cons_eq_next.mp hrun
    cases hrest
    rw [List.append_nil] at hmem
    exact presentByte_reset_of_output_ne hstep (output_ne_of_mem_newOutputs hmem)
  | cons c bytes ih =>
    obtain ⟨t, outs', hstep, hrest, rfl⟩ := runBytes_cons_eq_next.mp hrun
    have hoffset : offset + (c :: bytes).length = offset + 1 + bytes.length := by rw [List.length_cons]; omega
    rw [hoffset] at hmem
    obtain hfirst | hlater := List.mem_append.mp hmem
    · have := eq_offset_of_mem_newOutputs hfirst
      omega
    · exact ih hrest hlater

end

/-- Settles O19: the last byte of `bytes ++ [b]` has offset `bytes.length`. -/
theorem outcomeLeavesTheResetState : Obligations.OutcomeLeavesTheResetState := fun _ _ bytes b _ _ hrun hmem =>
  runBytes_concat_framer_of_mem bytes b hrun (by rwa [Nat.zero_add])

end Sys2Proof.Machine
end

section
/-! The statements about the step itself: which instruction it runs, what it puts out, where it stops, how `FRAME` and `HDR`
expand, and the kind rows (spec/00_scope.md, spec/20_memory.md, spec/30_encoding.md). -/

namespace Sys2Proof.Machine

/-! ### One step -/

/-- Settles O2, by what a step does with a decoded input. -/
theorem stepRunsTheDecodedInstruction : Obligations.StepRunsTheDecodedInstruction := fun _ _ _ _ hin hd =>
  step_of_decode hin hd

/-- Settles O3: there is no input to fetch. -/
theorem blockWaitsWithoutInput : Obligations.BlockWaitsWithoutInput := fun s hin => by
  simp only [step, fetch, hin]

section
variable {s : State} {x : Input} {rest : List Input} {r : Reject}

/-- An input that stands for no instruction is answered by name. -/
theorem step_of_decode_error (hin : s.input = x :: rest) (hd : decode s.ctx x = .error r) : step s = rejected r := by
  have hfetch : fetch s = some (x, s.withInput rest) := fetch_eq_some.mpr ⟨rest, hin, rfl⟩
  have hctx : (s.withInput rest).ctx = s.ctx := rfl
  simp only [step, hfetch, hctx, hd]

end

/-- Settles O4: the two marked presentations are decoded to nothing. -/
theorem presentationInsideAStepIsRefused : Obligations.PresentationInsideAStepIsRefused := fun _ _ _ =>
  ⟨step_of_decode_error (r := .byteInStep) rfl rfl, step_of_decode_error (r := .resetInStep) rfl rfl⟩

/-- Settles O18: what an instruction puts out is one event at most, and a step runs one instruction at most. -/
theorem stepEmitsAtMostOneEvent : Obligations.StepEmitsAtMostOneEvent := by
  intro s t h
  obtain ⟨-, rfl⟩ | ⟨x, rest, i, -, -, he⟩ := step_cases h
  · exact .inl rfl
  · obtain hsilent | ⟨v, hresult⟩ | ⟨c, hdrop⟩ | rfl := exec_output_cases he
    · exact .inl hsilent
    · exact .inr ⟨_, hresult⟩
    · exact .inr ⟨_, hdrop⟩
    · obtain ⟨-, p, hpacket⟩ := acceptPacket_reset he
      exact .inr ⟨_, hpacket⟩

/-! ### `FRAME` and `HDR` (R68) -/

/-- Settles O30: the length bytes of the frame are those of the payload's length. -/
theorem frameNotationExpands : Obligations.FrameNotationExpands := by
  rintro s p lo hi hp rfl rfl
  refine execFrame_next.mpr ⟨hp, ?_⟩
  rw [frameEncode, headerBytes, headerCrcOf, lowByte_ofNat, highByte_ofNat]
  rfl

/-- Settles O31: `HDR` has no bound, and its step decodes to it. -/
theorem headerNotationExpands : Obligations.HeaderNotationExpands := by
  rintro s n lo hi rfl rfl
  exact ⟨rfl, step_of_decode rfl rfl⟩

/-- Settles O32: the meaning and the decoder test the same bound. -/
theorem overlongNotationIsRefused : Obligations.OverlongNotationIsRefused := fun _ _ hp =>
  ⟨if_neg hp.not_ge, step_of_decode_error (r := .frameTooLong) rfl (if_neg hp.not_ge)⟩

/-! ### The kind rows -/

/-- Settles O14: the rows write their code's kind, and the row that is decoded is that of the first payload byte. -/
theorem kindRowsWriteTheKind : Obligations.KindRowsWriteTheKind := by
  refine ⟨fun s v => ⟨rfl, rfl, rfl, rfl, rfl⟩, fun s v hpos hread => ?_⟩
  have hv : s.ctx.payload0 = some v := State.ctx_payload0_eq_some.mpr (memRead_eq_ok.mpr ⟨hpos, hread⟩)
  have hd : decode (s.withInput (.kindDecode :: s.input)).ctx .kindDecode = .ok (decodeKindRow v) := by
    change decode s.ctx .kindDecode = _
    simp only [decode, hv]
  exact (step_of_decode rfl hd).trans (exec_decodeKindRow v s)

/-! ### Where the accesses stop -/

theorem collectByte_fault {s : State} {b : Byte} (h : s.cfg.capacity ≤ s.framer.receivedLength.toNat) :
    collectByte b s = .fault (.outsideBuffer s.framer.receivedLength.toNat) := by
  simp only [collectByte, memWrite, if_neg h.not_gt]

/-- A read of an index with no byte in it faults by the index, below `received_length` and above it (R36). -/
theorem memRead_eq_error {f : Framer} {a : Nat} (h : f.receivedLength.toNat ≤ a ∨ f.payload.read a = none) :
    memRead f a = .error (.unwrittenByte a) := by
  unfold memRead
  split
  next hlt =>
    rw [h.resolve_left hlt.not_ge]
  next => rfl

/-- A range of reads stops at its first missing byte. -/
theorem memReadRange_eq_error {f : Framer} {k start count : Nat} (hstart : start ≤ k) (hcount : k < start + count)
    (hread : ∀ j, start ≤ j → j < k → ∃ v, memRead f j = .ok v) (hk : memRead f k = .error (.unwrittenByte k)) :
    memReadRange f start count = .error (.unwrittenByte k) := by
  induction count generalizing start with
  | zero => omega
  | succ count ih =>
    obtain rfl | hlt := hstart.eq_or_lt
    · simp only [memReadRange, hk]
    · obtain ⟨v, hv⟩ := hread start le_rfl hlt
      have hrest := ih (start := start + 1) hlt (by omega) fun j hj => hread j (by omega)
      simp only [memReadRange, hv, hrest]

/-- An emission stops at the first missing byte of the payload. -/
theorem acceptPacket_fault {s : State} {k : Nat} (hk : k < s.framer.receivedLength.toNat)
    (hmissing : s.framer.payload.read k = none) (hbefore : ∀ j < k, s.framer.payload.read j ≠ none) :
    acceptPacket s = .fault (.unwrittenByte k) := by
  have hcopy : memReadRange s.framer.markValid 0 s.framer.receivedLength.toNat = .error (.unwrittenByte k) := by
    refine memReadRange_eq_error (Nat.zero_le k) (by omega) (fun j _ hj => ?_) (memRead_eq_error (.inr hmissing))
    obtain ⟨v, hv⟩ := Option.ne_none_iff_exists'.mp (hbefore j hj)
    exact ⟨v, memRead_eq_ok.mpr ⟨hj.trans hk, hv⟩⟩
  simp only [acceptPacket, hcopy]

/-- Settles O15: each of the three accesses meets its fault. -/
theorem accessesOutsideTheBufferFault : Obligations.AccessesOutsideTheBufferFault := by
  refine ⟨fun s b h => ⟨collectByte_fault h, collectByte_fault h⟩, fun s k => acceptPacket_fault, fun s h => ?_⟩
  have hread : memRead s.framer 0 = .error (.unwrittenByte 0) :=
    memRead_eq_error (h.imp (fun hnone => by rw [hnone]; rfl) id)
  have hd : decode (s.withInput (.kindDecode :: s.input)).ctx .kindDecode = .error .noPayloadByte := by
    change decode s.ctx .kindDecode = _
    simp only [decode, State.ctx, hread]
  exact step_of_decode_error rfl hd

end Sys2Proof.Machine
end

section
/-! The statements about the arithmetic of the CRC-8: the operations chain, are linear and lose nothing, so one changed byte
shows in the checksum (spec/40_crc8.md). -/

namespace Sys2Proof.Machine

/-! ### The returned values, chaining -/

/-- Settles O22: each of the four operations is one event on the outputs. -/
theorem checksumResultsAreReturned : Obligations.ChecksumResultsAreReturned :=
  ⟨fun _ _ => rfl, fun _ _ _ => rfl, fun _ _ _ => rfl, fun _ => rfl⟩

/-- A list in two parts is folded part by part (R74). -/
theorem crcCalc_append (d₁ d₂ : List Byte) (seed : Byte) :
    crcCalc (d₁ ++ d₂) seed = crcCalc d₂ (crcCalc d₁ seed) :=
  List.foldl_append

/-- Settles O23, by the fold over a concatenation. -/
theorem checksumChains : Obligations.ChecksumChains := fun d₁ d₂ seed => (crcCalc_append d₁ d₂ seed).symm

/-! ### Linearity (R76(b)) -/

/-- The polynomial, taken in when a bit is lost (R71). -/
def lostBit (c : Byte) : Byte := if c.getLsbD 7 then crcPoly else 0

theorem crcStep_eq_shift_xor (c : Byte) : crcStep c = c <<< 1 ^^^ lostBit c := by
  unfold crcStep lostBit
  split <;> simp

theorem lostBit_xor (x y : Byte) : lostBit (x ^^^ y) = lostBit x ^^^ lostBit y := by
  unfold lostBit
  rw [BitVec.getLsbD_xor]
  cases x.getLsbD 7 <;> cases y.getLsbD 7 <;> simp

theorem crcStep_xor (x y : Byte) : crcStep (x ^^^ y) = crcStep x ^^^ crcStep y := by
  simp only [crcStep_eq_shift_xor, BitVec.shiftLeft_xor_distrib, lostBit_xor]
  ac_rfl

theorem crcSteps_xor (n : Nat) (x y : Byte) : crcSteps n (x ^^^ y) = crcSteps n x ^^^ crcSteps n y := by
  induction n generalizing x y with
  | zero => rfl
  | succ n ih => rw [crcSteps, crcStep_xor, ih, crcSteps, crcSteps]

theorem crcUpdate_zero_left (x : Byte) : crcUpdate 0x00#8 x = crcSteps 8 x := by
  rw [crcUpdate, BitVec.zero_xor]

theorem crcUpdate_zero_zero : crcUpdate 0x00#8 0x00#8 = 0x00#8 := by decide

/-- Settles O25: each step is linear, and so are eight of them. -/
theorem checksumIsLinear : Obligations.ChecksumIsLinear := by
  refine ⟨crcStep_xor, fun c b => ?_, fun x y => ?_, crcUpdate_zero_zero⟩
  · exact (crcUpdate_zero_left _).symm
  · simp only [crcUpdate_zero_left, crcSteps_xor]

/-! ### Nothing is lost (R76(c), R76(d)) -/

/-- The low bit of the polynomial tells whether a bit was lost, so only 0 steps to 0. -/
theorem eq_zero_of_crcStep_eq_zero : ∀ c : Byte, crcStep c = 0 → c = 0 := by decide

theorem crcStep_injective : Function.Injective crcStep := fun x y h => by
  have hzero : crcStep (x ^^^ y) = 0 := by rw [crcStep_xor, h, BitVec.xor_self]; rfl
  exact BitVec.xor_eq_zero_iff.mp (eq_zero_of_crcStep_eq_zero _ hzero)

theorem crcSteps_injective (n : Nat) : Function.Injective (crcSteps n) := by
  rw [funext (crcSteps_eq_iterate n)]
  exact crcStep_injective.iterate n

theorem crcUpdate_injective_byte (c : Byte) : Function.Injective (crcUpdate c) := fun _ _ h =>
  (BitVec.xor_right_inj c).mp (crcSteps_injective 8 h)

theorem crcUpdate_injective_seed (b : Byte) : Function.Injective fun c => crcUpdate c b := fun _ _ h =>
  (BitVec.xor_left_inj b).mp (crcSteps_injective 8 h)

/-- Settles O26: an injection of a finite type into itself is a bijection. -/
theorem checksumStepsAreBijections : Obligations.ChecksumStepsAreBijections :=
  ⟨crcStep_injective.bijective_of_finite, fun c => (crcUpdate_injective_byte c).bijective_of_finite,
    fun b => (crcUpdate_injective_seed b).bijective_of_finite⟩

theorem crcCalc_injective_seed (data : List Byte) : Function.Injective (crcCalc data) := by
  induction data with
  | nil => exact Function.injective_id
  | cons b data ih => exact ih.comp (crcUpdate_injective_seed b)

/-- Settles O27: the changed byte gives another checksum there, and the bytes after it keep the two apart. -/
theorem oneChangedByteChangesTheChecksum : Obligations.OneChangedByteChangesTheChecksum := by
  intro before after x y seed hxy heq
  simp only [crcCalc_append, crcCalc_cons] at heq
  exact hxy (crcUpdate_injective_byte _ (crcCalc_injective_seed after heq))

/-! ### Corner cases (R75) -/

theorem crc8_replicate_zero (n : Nat) : crc8 (List.replicate n 0x00#8) = 0x00#8 := by
  induction n with
  | zero => rfl
  | succ n ih =>
    calc crc8 (List.replicate (n + 1) 0x00#8)
        = crcCalc (List.replicate n 0x00#8) (crcUpdate 0x00#8 0x00#8) := by rw [List.replicate_succ]; rfl
      _ = 0x00#8 := by rw [crcUpdate_zero_zero]; exact ih

/-- Settles O24: zero bytes keep the zero seed, which they need not do for another seed. -/
theorem checksumCornerCases : Obligations.ChecksumCornerCases :=
  ⟨crcCalc_nil, crc8_replicate_zero, rfl⟩

end Sys2Proof.Machine
end

section
/-! The statements about what each instruction writes and what it leaves alone: the registers, the buffer, and the machine
outside the framer (spec/10_state.md, spec/20_memory.md). -/

namespace Sys2Proof.Machine

/-! ### Instruction by instruction -/

/-- Settles O34, instruction by instruction: the two payload classes, the acceptance and `FRAME` by their inversion lemmas, the
others by their meaning. -/
theorem registersAreWrittenOnlyByTheirInstructions : Obligations.RegistersAreWrittenOnlyByTheirInstructions := by
  intro i s t h
  cases i with
  | gdMore | gdLast =>
    obtain ⟨-, rfl⟩ := collectByte_next.mp h
    rfl
  | sbOk =>
    obtain ⟨_, -, rfl⟩ := acceptPacket_next.mp h
    rfl
  | frame =>
    obtain ⟨-, rfl⟩ := execFrame_next.mp h
    rfl
  | wsSync | wsSkip | llStore | lhOk | lhTooLarge | hcOk | hcBad | dsOk | dsEmpty | dsBad | fcOk | fcBad | sbBad
  | crcStep | crcUpdate | crcCalc | crcClr | crcLoad | crcUpd | crcRead | kindRequest | kindStream | kindResponse
  | kindError | kindNone | reset | hdr =>
    cases h
    rfl

theorem Memory.read_write (m : Memory) (a b : Nat) (v : Byte) :
    (m.write a v).read b = if b = a then some v else m.read b := by
  split
  next h => exact h ▸ Memory.read_write_same m b v
  next h => exact Memory.read_write_other m v h

/-- Settles O35: a payload byte is one store, the resets leave the empty buffer, and nothing else touches it. -/
theorem bufferBytesChangeOnlyWhereStored : Obligations.BufferBytesChangeOnlyWhereStored := by
  intro i s t a h
  cases i with
  | gdMore | gdLast =>
    obtain ⟨-, rfl⟩ := collectByte_next.mp h
    exact Memory.read_write ..
  | sbOk =>
    obtain ⟨_, -, rfl⟩ := acceptPacket_next.mp h
    rfl
  | frame =>
    obtain ⟨-, rfl⟩ := execFrame_next.mp h
    rfl
  | wsSync | wsSkip | llStore | lhOk | lhTooLarge | hcOk | hcBad | dsOk | dsEmpty | dsBad | fcOk | fcBad | sbBad
  | crcStep | crcUpdate | crcCalc | crcClr | crcLoad | crcUpd | crcRead | kindRequest | kindStream | kindResponse
  | kindError | kindNone | reset | hdr =>
    cases h
    rfl

/-- Settles O36, instruction by instruction, grouped by what is written outside the framer. -/
theorem restOfTheMachineIsLeftAlone : Obligations.RestOfTheMachineIsLeftAlone := by
  intro i s t h
  cases i with
  | gdMore | gdLast =>
    obtain ⟨-, rfl⟩ := collectByte_next.mp h
    exact ⟨rfl, rfl, rfl, rfl⟩
  | sbOk =>
    obtain ⟨_, -, rfl⟩ := acceptPacket_next.mp h
    exact ⟨rfl, rfl, rfl, trivial⟩
  | frame =>
    obtain ⟨-, rfl⟩ := execFrame_next.mp h
    exact ⟨rfl, rfl, trivial, rfl⟩
  | hdr =>
    cases h
    exact ⟨rfl, rfl, trivial, rfl⟩
  | crcClr | crcLoad | crcUpd | reset =>
    cases h
    exact ⟨rfl, trivial, rfl, rfl⟩
  | lhTooLarge | hcBad | dsBad | fcBad | sbBad | crcStep | crcUpdate | crcCalc | crcRead =>
    cases h
    exact ⟨rfl, rfl, rfl, trivial⟩
  | wsSync | wsSkip | llStore | lhOk | hcOk | dsOk | dsEmpty | fcOk | kindRequest | kindStream | kindResponse | kindError
  | kindNone =>
    cases h
    exact ⟨rfl, rfl, rfl, rfl⟩

/-! ### The step -/

section
variable {s t : State}

/-- No step writes a parameter (R149). -/
theorem step_cfg (h : step s = .next t) : t.cfg = s.cfg := by
  obtain ⟨-, rfl⟩ | ⟨x, rest, i, -, -, he⟩ := step_cases h
  · rfl
  · exact (restOfTheMachineIsLeftAlone i _ t he).1

/-- The three things an instruction can do to the buffer as a whole. -/
theorem exec_payload_cases {i : Instr} (h : exec i s = .next t) :
    t.framer.payload = s.framer.payload ∨ t.framer.payload = [] ∨
      ∃ a v, t.framer.payload = s.framer.payload.write a v := by
  cases i with
  | gdMore | gdLast =>
    obtain ⟨-, rfl⟩ := collectByte_next.mp h
    exact .inr (.inr ⟨_, _, rfl⟩)
  | sbOk => exact .inr (.inl (congrArg Framer.payload (acceptPacket_reset h).1))
  | frame =>
    obtain ⟨-, rfl⟩ := execFrame_next.mp h
    exact .inl rfl
  | wsSync | lhTooLarge | hcBad | dsBad | fcBad | sbBad | reset =>
    cases h
    exact .inr (.inl rfl)
  | wsSkip | llStore | lhOk | hcOk | dsOk | dsEmpty | fcOk | crcStep | crcUpdate | crcCalc | crcClr | crcLoad | crcUpd
  | crcRead | kindRequest | kindStream | kindResponse | kindError | kindNone | hdr =>
    cases h
    exact .inl rfl

end

/-- Settles O42: an old buffer, an empty one, and an old one with one store are all in canonical form. -/
theorem bufferStaysCanonical : Obligations.BufferStaysCanonical := by
  intro s t hs h
  obtain ⟨-, rfl⟩ | ⟨x, rest, i, -, -, he⟩ := step_cases h
  · exact hs
  · obtain hsame | hempty | ⟨a, v, hstore⟩ := exec_payload_cases he
    · rw [hsame]
      exact hs
    · rw [hempty]
      rfl
    · rw [hstore]
      exact Memory.wf_write _ a v hs

end Sys2Proof.Machine
end

section
/-! The statements about decoding and encoding: they agree, the class of a byte is the first matching row, and words of the
table (spec/30_encoding.md). -/

namespace Sys2Proof.Machine

/-! ### What is decoded is well formed, selected, and presented by its input -/

/-- The input `x` presents `i` under the registers `c`. -/
def Presents (c : Ctx) (x : Input) (i : Instr) : Prop :=
  wellFormed c.cfg i = true ∧ selectedIn c i = true ∧ x = encode i

/-- The class of a byte is presented by it: the conditions of its row are the ones the decoder has tested. -/
theorem presents_decodeByte (c : Ctx) (b : Byte) : Presents c (.byte b) (decodeByte c b) := by
  unfold decodeByte
  cases hp : c.position with
  | waitSync =>
    dsimp only
    split
    next hb => exact ⟨rfl, by simp [selectedIn, hp], hb ▸ rfl⟩
    next hb => exact ⟨bne_iff_ne.mpr hb, by simp [selectedIn, hp], rfl⟩
  | getLengthLow => exact ⟨rfl, by simp [selectedIn, hp], rfl⟩
  | getLengthHigh =>
    dsimp only
    split
    next hb => exact ⟨rfl, by simp [selectedIn, hp, hb], rfl⟩
    next hb => exact ⟨rfl, by simp [selectedIn, hp, hb], rfl⟩
  | getHeaderCrc =>
    dsimp only
    split
    next hb => exact ⟨rfl, by simp [selectedIn, hp, hb], rfl⟩
    next hb => exact ⟨rfl, by simp [selectedIn, hp, hb], rfl⟩
  | waitDataSync =>
    dsimp only
    split
    next hb =>
      split
      next hl => exact ⟨rfl, by simp [selectedIn, hp, hl], hb ▸ rfl⟩
      next hl => exact ⟨rfl, by simpa [selectedIn, hp] using hl, hb ▸ rfl⟩
    next hb => exact ⟨bne_iff_ne.mpr hb, by simp [selectedIn, hp], rfl⟩
  | getData =>
    dsimp only
    split
    next hb => exact ⟨rfl, by simp [selectedIn, hp, hb], rfl⟩
    next hb => exact ⟨rfl, by simp [selectedIn, hp, hb], rfl⟩
  | getFooterCrc =>
    dsimp only
    split
    next hb => exact ⟨rfl, by simp [selectedIn, hp, hb], rfl⟩
    next hb => exact ⟨rfl, by simp [selectedIn, hp, hb], rfl⟩
  | getStopByte =>
    dsimp only
    split
    next hb => exact ⟨rfl, by simp [selectedIn, hp], hb ▸ rfl⟩
    next hb => exact ⟨bne_iff_ne.mpr hb, by simp [selectedIn, hp], rfl⟩

/-- The codes of R62 are told apart by `DecodeKind`. -/
theorem decodeKind_eq_some_iff {v : Byte} {k : Kind} : decodeKind v = some k ↔ v = kindCode k := by
  constructor
  · intro h
    unfold decodeKind at h
    split_ifs at h <;> cases h <;> assumption
  · rintro rfl
    cases k <;> rfl

theorem presents_decodeKindRow {c : Ctx} {v : Byte} (h : c.payload0 = some v) : Presents c .kindDecode (decodeKindRow v) := by
  unfold decodeKindRow
  cases hk : decodeKind v with
  | none => exact ⟨decide_eq_true hk, beq_iff_eq.mpr h, rfl⟩
  | some k =>
    have hv := decodeKind_eq_some_iff.mp hk
    subst hv
    cases k <;> exact ⟨rfl, beq_iff_eq.mpr h, rfl⟩

/-! ### What is well formed and selected is decoded from its input -/

/-- The decoder finds an instruction again from its input: it tests the position, the byte and the condition of the row. -/
theorem decode_encode {c : Ctx} {i : Instr} (hwf : wellFormed c.cfg i = true) (hsel : selectedIn c i = true) :
    decode c (encode i) = .ok i := by
  cases i with
  | wsSync | llStore | sbOk =>
    have hp := beq_iff_eq.mp hsel
    simp [encode, decode, decodeByte, hp]
  | wsSkip | dsBad | sbBad =>
    have hp := beq_iff_eq.mp hsel
    have hb := bne_iff_ne.mp hwf
    simp [encode, decode, decodeByte, hp, hb]
  | lhOk | lhTooLarge | hcOk | hcBad | gdMore | gdLast | dsEmpty | fcOk | fcBad =>
    simp only [selectedIn, Bool.and_eq_true, Bool.not_eq_true', beq_iff_eq, bne_iff_ne] at hsel
    obtain ⟨hp, hcond⟩ := hsel
    simp [encode, decode, decodeByte, hp, hcond]
  | dsOk =>
    obtain ⟨hp, hcond⟩ := Bool.and_eq_true_iff.mp hsel
    simpa [encode, decode, decodeByte, beq_iff_eq.mp hp] using hcond
  | kindRequest | kindStream | kindResponse | kindError =>
    have hv := beq_iff_eq.mp hsel
    simp only [encode, decode, hv]
    rfl
  | kindNone =>
    have hv := beq_iff_eq.mp hsel
    have hkind := of_decide_eq_true hwf
    simp only [encode, decode, hv, decodeKindRow, hkind]
  | frame => exact if_pos (of_decide_eq_true hwf)
  | crcStep | crcUpdate | crcCalc | crcClr | crcLoad | crcUpd | crcRead | reset | hdr => rfl

/-- Settles O52: input by input one way, and instruction by instruction the other. -/
theorem decodeAndEncodeAgree : Obligations.DecodeAndEncodeAgree := by
  intro c x i
  constructor
  · intro h
    cases x with
    | byte b =>
      cases h
      exact presents_decodeByte c b
    | kindDecode =>
      simp only [decode] at h
      split at h
      next v hv =>
        cases h
        exact presents_decodeKindRow hv
      next => cases h
    | frame p =>
      simp only [decode] at h
      split at h
      next hp =>
        cases h
        exact ⟨decide_eq_true hp, rfl, rfl⟩
      next => cases h
    | reset | crcStep | crcUpdate | crcCalc | crcClr | crcLoad | crcUpd | crcRead | hdr =>
      cases h
      exact ⟨rfl, rfl, rfl⟩
    | byteInStep | resetInStep => cases h
  · rintro ⟨hwf, hsel, rfl⟩
    exact decode_encode hwf hsel

/-! ### The class table -/

/-- A mask of all ones tests the whole byte. -/
theorem and_full_mask (b : Byte) : b &&& 0xFF#8 = b := BitVec.and_allOnes

/-- The class that a table gives is its first row's, if that applies, and otherwise the one that the other rows give. -/
theorem find_class_cons (c : Ctx) (b : Byte) (r : ClassRow) (rows : List ClassRow) :
    ((r :: rows).find? (ClassRow.applies c b)).map (fun r => r.make b) =
      if r.applies c b then some (r.make b) else (rows.find? (ClassRow.applies c b)).map fun r => r.make b := by
  rw [List.find?_cons]
  cases r.applies c b <;> rfl

/-- The table as a chain of tests. -/
theorem tableClass_eq_chain (c : Ctx) (b : Byte) :
    tableClass c b = classRows.foldr (fun r rest => if r.applies c b then some (r.make b) else rest) none := by
  unfold tableClass
  induction classRows with
  | nil => rfl
  | cons r rows ih => rw [find_class_cons, ih, List.foldr_cons]

/-- Settles O53: in each position only the rows of that position are left, and the first row that is left tests what the
decoder tests. -/
theorem byteClassIsTheFirstMatchingRow : Obligations.ByteClassIsTheFirstMatchingRow := by
  intro c b
  rw [tableClass_eq_chain]
  cases hp : c.position with
  | waitSync =>
    by_cases hb : b = 0xFA#8 <;> simp [classRows, ClassRow.applies, noCond, decodeByte, hp, and_full_mask, syncByte, hb]
  | getLengthLow => simp [classRows, ClassRow.applies, noCond, decodeByte, hp]
  | getLengthHigh =>
    by_cases hb : lengthFits c b <;> simp [classRows, ClassRow.applies, noCond, decodeByte, hp, hb]
  | getHeaderCrc =>
    by_cases hb : headerMatches c b <;> simp [classRows, ClassRow.applies, noCond, decodeByte, hp, hb]
  | waitDataSync =>
    by_cases hb : b = 0xFB#8
    · by_cases hl : c.declaredLength = 0#16 <;>
        simp [classRows, ClassRow.applies, noCond, decodeByte, hp, and_full_mask, dsyncByte, hb, hl]
    · simp [classRows, ClassRow.applies, noCond, decodeByte, hp, and_full_mask, dsyncByte, hb]
  | getData =>
    by_cases hb : moreToCome c <;> simp [classRows, ClassRow.applies, noCond, decodeByte, hp, hb]
  | getFooterCrc =>
    by_cases hb : b = c.runCrc <;> simp [classRows, ClassRow.applies, noCond, decodeByte, hp, hb]
  | getStopByte =>
    by_cases hb : b = 0xFE#8 <;> simp [classRows, ClassRow.applies, noCond, decodeByte, hp, and_full_mask, stopByte, hb]

/-- Settles O54, by evaluating the decoder on the nine words. -/
theorem wordsOfTheTableDecode : Obligations.WordsOfTheTableDecode :=
  ⟨rfl, rfl, rfl, rfl, rfl, rfl, rfl, rfl, rfl⟩

end Sys2Proof.Machine
end

section
/-! The statements about the invariant: it holds at reset, every step keeps it, and under it no orderly input stops the block
and every frame attempt ends (spec/10_state.md, spec/60_exceptions.md). The proofs go through one relation, which says what
bytes of a frame in progress the framer has read. -/

namespace Sys2Proof.Machine

/-! ### The bytes of a frame in progress -/

/-- The framer that has accepted both checksums of the frame that carries `q`. -/
def Framer.beforeStop (q : List Byte) : Framer :=
  ((Framer.midFrame (BitVec.ofNat 16 q.length) q).withFooterCrc (crc8 q)).goto .getStopByte

/-- The framer `f` is where it is because it has read the bytes `seen`, which so far are those of a frame within the bound. -/
inductive Framer.HasRead (cfg : Config) : List Byte → Framer → Prop
  | nothing : HasRead cfg [] Framer.reset
  | sync : HasRead cfg [syncByte] (Framer.reset.goto .getLengthLow)
  | low (lo : Byte) :
      HasRead cfg [syncByte, lo] ((Framer.reset.withDeclaredLength (lengthFromLow lo)).goto .getLengthHigh)
  | length (n : Half) (hn : n.toNat ≤ cfg.maxLen) :
      HasRead cfg [syncByte, lowByte n, highByte n] ((Framer.reset.withDeclaredLength n).goto .getHeaderCrc)
  | headerCrc (n : Half) (hn : n.toNat ≤ cfg.maxLen) :
      HasRead cfg [syncByte, lowByte n, highByte n, headerCrcOf n]
        (((Framer.reset.withDeclaredLength n).withHeaderCrc (headerCrcOf n)).goto .waitDataSync)
  | payload (n : Half) (q : List Byte) (hn : n.toNat ≤ cfg.maxLen) (hq : q.length ≤ n.toNat) :
      HasRead cfg (headerBytes n ++ q) (Framer.midFrame n q)
  | footer (q : List Byte) (hq : q.length ≤ cfg.maxLen) :
      HasRead cfg (headerBytes (BitVec.ofNat 16 q.length) ++ q ++ [crc8 q])
        (Framer.beforeStop q)

section
variable {cfg : Config} {seen : List Byte} {f : Framer}

/-- A frame in progress lacks its last byte at least (R140). -/
theorem Framer.HasRead.length_le (h : f.HasRead cfg seen) : seen.length ≤ cfg.maxLen + 6 := by
  cases h <;> simp [headerBytes] <;> omega

theorem Framer.HasRead.eq_reset_of_nil (h : f.HasRead cfg []) : f = Framer.reset := by
  generalize hs : ([] : List Byte) = seen at h
  cases h with
  | nothing => rfl
  | sync | low | length | headerCrc | payload | footer => simp [headerBytes] at hs

end

/-! ### The relation and the invariant -/

theorem Memory.eq_ofBytes {m : Memory} {n : Nat} (h : m.map Prod.fst = List.range n) :
    m = Memory.ofBytes (m.map Prod.snd) := by
  have hlen : (m.map Prod.snd).length = n := by simpa using congrArg List.length h
  rw [Memory.ofBytes, hlen, ← h]
  exact List.zip_of_prod rfl rfl

theorem Framer.midFrame_collected (n : Half) (q : List Byte) : (Framer.midFrame n q).collected = q :=
  Memory.ofBytes_map_snd q

theorem Framer.midFrame_collecting {n : Half} {q : List Byte} (hq : q.length < 65536) :
    (Framer.midFrame n q).Collecting where
  indices := by
    rw [show (Framer.midFrame n q).receivedLength.toNat = q.length from Nat.mod_eq_of_lt hq]
    exact Memory.ofBytes_map_fst q
  runCrc := by rw [Framer.midFrame_collected]; rfl
  kind := by rw [Framer.midFrame_collected]; rfl
  sequence := by rw [Framer.midFrame_collected]; rfl
  valid := rfl

section
variable {f : Framer} (hf : f.Collecting)
include hf

/-- A framer that is collecting is, but for its position and the two checksums of the frame, one in the middle of a frame. -/
theorem Framer.Collecting.eq_midFrame :
    f = (((Framer.midFrame f.declaredLength f.collected).withHeaderCrc f.headerCrc).withFooterCrc
      f.footerCrc).goto f.position := by
  have hcount : f.receivedLength = BitVec.ofNat 16 f.collected.length := by
    rw [hf.length_collected, BitVec.ofNat_toNat, BitVec.setWidth_eq]
  have hbuffer : f.payload = Memory.ofBytes f.collected := Memory.eq_ofBytes hf.indices
  obtain ⟨position, declaredLength, receivedLength, headerCrc, footerCrc, runCrc, kind, sequence, valid, payload⟩ := f
  exact (Framer.mk.injEq ..).mpr
    ⟨rfl, rfl, hcount, rfl, rfl, hf.runCrc, hf.kind, hf.sequence, hf.valid, hbuffer⟩

/-- The registers that `Framer.Collecting` does not mention may be written. -/
theorem Framer.Collecting.goto (p : Position) : (f.goto p).Collecting :=
  ⟨hf.indices, hf.runCrc, hf.kind, hf.sequence, hf.valid⟩

theorem Framer.Collecting.withDeclaredLength (n : Half) : (f.withDeclaredLength n).Collecting :=
  ⟨hf.indices, hf.runCrc, hf.kind, hf.sequence, hf.valid⟩

theorem Framer.Collecting.withHeaderCrc (v : Byte) : (f.withHeaderCrc v).Collecting :=
  ⟨hf.indices, hf.runCrc, hf.kind, hf.sequence, hf.valid⟩

theorem Framer.Collecting.withFooterCrc (v : Byte) : (f.withFooterCrc v).Collecting :=
  ⟨hf.indices, hf.runCrc, hf.kind, hf.sequence, hf.valid⟩

end

theorem Framer.reset_collecting : Framer.reset.Collecting := ⟨rfl, rfl, rfl, rfl, rfl⟩

section
variable {cfg : Config} {seen : List Byte} {f : Framer}

theorem lengthFromLow_toNat_lt (lo : Byte) : (lengthFromLow lo).toNat < 256 := by
  have := lo.isLt
  simp only [lengthFromLow, BitVec.truncate_eq_setWidth, BitVec.toNat_setWidth]
  omega

theorem lengthFromLow_lowByte {n : Half} (hn : n.toNat < 256) : lengthFromLow (lowByte n) = n := by
  apply BitVec.eq_of_toNat_eq
  simp only [lengthFromLow, lowByte, BitVec.truncate_eq_setWidth, BitVec.toNat_setWidth, BitVec.extractLsb'_toNat,
    Nat.shiftRight_zero]
  omega

theorem toNat_ofNat_of_le_maxLen (hcfg : cfg.ok) {k : Nat} (hk : k ≤ cfg.maxLen) : (BitVec.ofNat 16 k).toNat = k :=
  Nat.mod_eq_of_lt (by have := hcfg.2; omega)

theorem eq_ofNat_of_toNat_eq {n : Half} {k : Nat} (h : n.toNat = k) : n = BitVec.ofNat 16 k := by
  rw [← h, BitVec.ofNat_toNat, BitVec.setWidth_eq]

theorem Framer.midFrame_position_getFooterCrc {n : Half} {q : List Byte} (hq : q.length = n.toNat) :
    (Framer.midFrame n q).position = .getFooterCrc :=
  if_pos (eq_ofNat_of_toNat_eq hq.symm)

theorem Framer.HasRead.collecting (hcfg : cfg.ok) (h : f.HasRead cfg seen) : f.Collecting := by
  cases h with
  | nothing => exact Framer.reset_collecting
  | sync => exact Framer.reset_collecting.goto _
  | low lo => exact (Framer.reset_collecting.withDeclaredLength _).goto _
  | length n hn => exact (Framer.reset_collecting.withDeclaredLength n).goto _
  | headerCrc n hn => exact ((Framer.reset_collecting.withDeclaredLength n).withHeaderCrc _).goto _
  | payload n q hn hq => exact Framer.midFrame_collecting (hq.trans_lt n.isLt)
  | footer q hq => exact ((Framer.midFrame_collecting (by have := hcfg.2; omega)).withFooterCrc _).goto _

theorem Framer.HasRead.inPosition (hcfg : cfg.ok) (h : f.HasRead cfg seen) : f.InPosition cfg := by
  cases h with
  | nothing => exact rfl
  | sync => exact rfl
  | low lo => exact ⟨lengthFromLow_toNat_lt lo, rfl⟩
  | length n hn => exact ⟨hn, rfl⟩
  | headerCrc n hn => exact ⟨hn, rfl, rfl, rfl⟩
  | payload n q hn hq =>
    obtain hlt | heq := hq.lt_or_eq
    · have hcount : (Framer.midFrame n q).receivedLength.toNat = q.length := Nat.mod_eq_of_lt (hq.trans_lt n.isLt)
      rw [Framer.InPosition, Framer.midFrame_position_getData hlt]
      exact ⟨hn, rfl, hcount.trans_lt hlt, rfl⟩
    · rw [Framer.InPosition, Framer.midFrame_position_getFooterCrc heq]
      exact ⟨hn, rfl, (eq_ofNat_of_toNat_eq heq.symm).symm, rfl⟩
  | footer q hq => exact ⟨(toNat_ofNat_of_le_maxLen hcfg hq).trans_le hq, rfl, rfl, rfl⟩

theorem Framer.HasRead.exists_of_eq {g : Framer} (h : g.HasRead cfg seen) (hfg : f = g) :
    ∃ seen, f.HasRead cfg seen :=
  ⟨seen, hfg ▸ h⟩

/-- Each position fixes what has been read: the bytes of the frame that its registers hold. -/
theorem Framer.InPosition.exists_hasRead (hf : f.Collecting) (h : f.InPosition cfg) :
    ∃ seen, f.HasRead cfg seen := by
  have hmid := hf.eq_midFrame
  have hlen := hf.length_collected
  unfold Framer.InPosition at h
  cases hp : f.position with
  | waitSync =>
    rw [hp] at h
    exact Framer.HasRead.nothing.exists_of_eq h
  | getLengthLow =>
    rw [hp] at h
    exact Framer.HasRead.sync.exists_of_eq h
  | getLengthHigh =>
    rw [hp] at h
    obtain ⟨hlow, h⟩ := h
    rw [← lengthFromLow_lowByte hlow] at h
    exact (Framer.HasRead.low _).exists_of_eq h
  | getHeaderCrc =>
    rw [hp] at h
    obtain ⟨hbound, h⟩ := h
    exact (Framer.HasRead.length _ hbound).exists_of_eq h
  | waitDataSync =>
    rw [hp] at h
    obtain ⟨hbound, hheader, hcount, hfooter⟩ := h
    have hnone : f.collected = [] := List.eq_nil_of_length_eq_zero (by simpa [hcount] using hlen)
    rw [hnone, hheader, hfooter, hp] at hmid
    exact (Framer.HasRead.headerCrc _ hbound).exists_of_eq hmid
  | getData =>
    rw [hp] at h
    obtain ⟨hbound, hheader, hcount, hfooter⟩ := h
    have hq : f.collected.length < f.declaredLength.toNat := hlen ▸ hcount
    rw [hheader, hfooter, hp, ← Framer.midFrame_position_getData hq] at hmid
    exact (Framer.HasRead.payload _ _ hbound hq.le).exists_of_eq hmid
  | getFooterCrc =>
    rw [hp] at h
    obtain ⟨hbound, hheader, hcount, hfooter⟩ := h
    have hq : f.collected.length = f.declaredLength.toNat := by rw [hlen, hcount]
    rw [hheader, hfooter, hp, ← Framer.midFrame_position_getFooterCrc hq] at hmid
    exact (Framer.HasRead.payload _ _ hbound hq.le).exists_of_eq hmid
  | getStopByte =>
    rw [hp] at h
    obtain ⟨hbound, hheader, hcount, hfooter⟩ := h
    have hq : f.collected.length = f.declaredLength.toNat := by rw [hlen, hcount]
    rw [hheader, hfooter, hf.runCrc, hp, eq_ofNat_of_toNat_eq hq.symm] at hmid
    exact (Framer.HasRead.footer f.collected (hq.trans_le hbound)).exists_of_eq hmid

/-- The invariant says that the framer has read some bytes of a frame, in the terms of its registers. -/
theorem State.inv_iff_hasRead {s : State} : s.Inv ↔ s.cfg.ok ∧ ∃ seen, s.framer.HasRead s.cfg seen :=
  ⟨fun h => ⟨h.parameters, h.inPosition.exists_hasRead h.collecting⟩,
    fun ⟨hcfg, _, hread⟩ => ⟨hcfg, hread.collecting hcfg, hread.inPosition hcfg⟩⟩

end

/-! ### One byte more -/

/-- What a byte does to a framer that has read `seen`: the frame goes on, a gap byte is skipped, the frame is dropped, or it
is complete and its packet goes out. -/
inductive ByteOutcome (b : Byte) (seen : List Byte) (s : State) : State → Prop
  | goesOn {f : Framer} (h : f.HasRead s.cfg (seen ++ [b])) : ByteOutcome b seen s (s.withFramer f)
  | skipped (h : seen = []) : ByteOutcome b seen s s
  | dropped (c : DropCause) : ByteOutcome b seen s (raiseDrop c s)
  | accepted (q : List Byte) (hq : q.length ≤ s.cfg.maxLen) (h : seen ++ [b] = frameEncode q) :
      ByteOutcome b seen s ((s.emit (.packet (packetFor q))).withFramer Framer.reset)

theorem lowByte_assembleLength (hi : Byte) (declared : Half) : lowByte (assembleLength hi declared) = lowByte declared := by
  have hlow := (lowByte declared).isLt
  apply BitVec.eq_of_toNat_eq
  rw [lowByte, BitVec.extractLsb'_toNat, assembleLength_toNat, Nat.shiftRight_zero]
  omega

theorem highByte_assembleLength (hi : Byte) (declared : Half) : highByte (assembleLength hi declared) = hi := by
  have hlow := (lowByte declared).isLt
  have hhigh := hi.isLt
  apply BitVec.eq_of_toNat_eq
  rw [highByte, BitVec.extractLsb'_toNat, assembleLength_toNat, Nat.shiftRight_eq_div_pow]
  omega

section
variable {s : State} {seen : List Byte}

/-- The emission copies the payload that the frame carries. -/
theorem acceptPacket_beforeStop {q : List Byte} (hcfg : s.cfg.ok) (hq : q.length ≤ s.cfg.maxLen)
    (hs : s.framer = Framer.beforeStop q) :
    acceptPacket s = .next ((s.emit (.packet (packetFor q))).withFramer Framer.reset) := by
  have hcollecting : s.framer.Collecting := hs ▸ (Framer.HasRead.footer q hq).collecting hcfg
  have hcollected : s.framer.collected = q := hs ▸ Framer.midFrame_collected (BitVec.ofNat 16 q.length) q
  have hcopy := hcollecting.memReadRange_eq
  rw [hcollected] at hcopy
  exact acceptPacket_next.mpr ⟨q, hcopy, by rw [hs]; rfl⟩

/-- Under the invariant a byte always has a step, and one of the four outcomes. -/
theorem Framer.HasRead.exists_presentByte (b : Byte) (hcfg : s.cfg.ok) (h : s.framer.HasRead s.cfg seen) :
    ∃ t, presentByte b s = .next t ∧ ByteOutcome b seen s t := by
  generalize hf : s.framer = f at h
  cases h with
  | nothing =>
    rw [presentByte_waitSync (by rw [hf]; rfl)]
    split
    next hb => exact ⟨_, rfl, .goesOn (hb ▸ .sync)⟩
    next => exact ⟨_, rfl, .skipped rfl⟩
  | sync =>
    rw [presentByte_getLengthLow (by rw [hf]; rfl), hf]
    exact ⟨_, rfl, .goesOn (.low b)⟩
  | low lo =>
    rw [presentByte_getLengthHigh (by rw [hf]; rfl), hf]
    split
    next hfits =>
      have hread := Framer.HasRead.length (assembleLength b (lengthFromLow lo)) hfits
      rw [lowByte_assembleLength, highByte_assembleLength, lowByte_lengthFromLow] at hread
      exact ⟨_, rfl, .goesOn hread⟩
    next => exact ⟨_, rfl, .dropped _⟩
  | length n hn =>
    rw [presentByte_getHeaderCrc (by rw [hf]; rfl), hf]
    split
    next hb => exact ⟨_, rfl, .goesOn (hb ▸ .headerCrc n hn)⟩
    next => exact ⟨_, rfl, .dropped _⟩
  | headerCrc n hn =>
    rw [presentByte_waitDataSync (by rw [hf]; rfl), hf]
    split
    next hb => exact ⟨_, rfl, .goesOn (hb ▸ .payload n [] hn (Nat.zero_le _))⟩
    next => exact ⟨_, rfl, .dropped _⟩
  | payload n q hn hq =>
    obtain hlt | heq := hq.lt_or_eq
    · rw [presentByte_midFrame b hf hlt (hn.trans hcfg.1)]
      refine ⟨_, rfl, .goesOn ?_⟩
      rw [List.append_assoc]
      exact .payload n _ hn (by simpa using hlt)
    · rw [presentByte_getFooterCrc (by rw [hf]; exact Framer.midFrame_position_getFooterCrc heq), hf]
      split
      next hb =>
        obtain rfl : b = crc8 q := hb
        obtain rfl := eq_ofNat_of_toNat_eq heq.symm
        exact ⟨_, rfl, .goesOn (.footer q (heq.trans_le hn))⟩
      next => exact ⟨_, rfl, .dropped _⟩
  | footer q hq =>
    rw [presentByte_getStopByte (by rw [hf]; rfl)]
    split
    next hb =>
      have hframe : headerBytes (BitVec.ofNat 16 q.length) ++ q ++ [crc8 q] ++ [b] = frameEncode q := by
        rw [hb, List.append_assoc]
        rfl
      exact ⟨_, acceptPacket_beforeStop hcfg hq hf, .accepted q hq hframe⟩
    next => exact ⟨_, rfl, .dropped _⟩

theorem ByteOutcome.inv {b : Byte} {t : State} (hcfg : s.cfg.ok) (h : ByteOutcome b seen s t)
    (hread : s.framer.HasRead s.cfg seen) : t.Inv := by
  rw [State.inv_iff_hasRead]
  cases h with
  | goesOn hf => exact ⟨hcfg, _, hf⟩
  | skipped => exact ⟨hcfg, _, hread⟩
  | dropped | accepted => exact ⟨hcfg, _, .nothing⟩

/-- What a byte does from a state that has the invariant. -/
theorem State.Inv.exists_presentByte (b : Byte) (hs : s.Inv) :
    ∃ seen t, s.framer.HasRead s.cfg seen ∧ presentByte b s = .next t ∧ ByteOutcome b seen s t := by
  obtain ⟨hcfg, seen, hread⟩ := State.inv_iff_hasRead.mp hs
  obtain ⟨t, ht, hout⟩ := hread.exists_presentByte b hcfg
  exact ⟨seen, t, hread, ht, hout⟩

end

/-! ### The invariant -/

/-- Settles O37: right after reset nothing has been read. -/
theorem invariantHoldsAtReset : Obligations.InvariantHoldsAtReset :=
  ⟨State.inv_iff_hasRead.mpr ⟨by decide, [], .nothing⟩, rfl⟩

/-- A kind decode from outside finds the kind that is there already (R105). -/
theorem Framer.Collecting.withKind_eq_self {f : Framer} {v : Byte} (hf : f.Collecting) (h : memRead f 0 = .ok v) :
    f.withKind (decodeKind v) = f := by
  have hpos : 0 < f.collected.length := hf.length_collected ▸ (memRead_eq_ok.mp h).1
  have hv : f.collected[0] = v := Except.ok.inj ((hf.memRead_eq hpos).symm.trans h)
  have hkind : decodeKind v = f.kind := by rw [hf.kind, List.getElem?_eq_getElem hpos, hv]; rfl
  rw [hkind]
  rfl

/-- The invariant is about the parameters and the framer. -/
theorem State.Inv.of_eq {s t : State} (hs : s.Inv) (hcfg : t.cfg = s.cfg) (hframer : t.framer = s.framer) : t.Inv :=
  ⟨hcfg ▸ hs.parameters, hframer ▸ hs.collecting, hcfg ▸ hframer ▸ hs.inPosition⟩

theorem State.Inv.withFramer_reset {s : State} (hs : s.Inv) : (s.withFramer Framer.reset).Inv :=
  State.inv_iff_hasRead.mpr ⟨hs.parameters, [], .nothing⟩

/-- Settles O38, by the four things a step can do to the framer. -/
theorem invariantIsKeptByEveryStep : Obligations.InvariantIsKeptByEveryStep := by
  intro s t hs h
  have hcfg := step_cfg h
  obtain ⟨b, rest, -, hb⟩ | ⟨v, hv, hkind⟩ | hreset | hsame := step_framer_cases h
  · have hrest : (s.withInput rest).Inv := hs.of_eq rfl rfl
    obtain ⟨seen, u, hread, hu, hout⟩ := hrest.exists_presentByte b
    obtain rfl : u = t := Host.Outcome.next.inj (hu.symm.trans hb)
    exact hout.inv hrest.parameters hread
  · exact hs.of_eq hcfg (hkind.trans (hs.collecting.withKind_eq_self hv))
  · exact hs.withFramer_reset.of_eq hcfg hreset
  · exact hs.of_eq hcfg hsame

/-! ### No orderly input stops the block -/

/-- Settles O39: a byte has a step under the invariant, and every other orderly input has one anyway. -/
theorem orderlyInputNeverStopsTheBlock : Obligations.OrderlyInputNeverStopsTheBlock := by
  intro s hs horderly
  cases hin : s.input with
  | nil => exact ⟨s, by simp only [step, fetch, hin]⟩
  | cons x rest =>
    have hx : orderlyInput s.cfg x = true := horderly x (by rw [hin]; rfl)
    cases x with
    | byte b =>
      have hrest : (s.withInput rest).Inv := hs.of_eq rfl rfl
      obtain ⟨-, t, -, ht, -⟩ := hrest.exists_presentByte b
      exact ⟨t, (step_of_decode hin rfl).trans ht⟩
    | frame p =>
      have hp : p.length ≤ s.cfg.maxLen := of_decide_eq_true hx
      exact ⟨_, (step_of_decode hin (if_pos hp)).trans (execFrame_next.mpr ⟨hp, rfl⟩)⟩
    | reset | crcStep | crcUpdate | crcCalc | crcClr | crcLoad | crcUpd | crcRead | hdr =>
      exact ⟨_, step_of_decode hin rfl⟩
    | kindDecode | byteInStep | resetInStep => cases hx

/-! ### Every attempt ends -/

/-- A frame attempt that has read `seen` ends within the bytes that a frame of `MAX_LEN` payload bytes still has. -/
theorem Framer.HasRead.exists_reset {s : State} {seen : List Byte} (hcfg : s.cfg.ok) (h : s.framer.HasRead s.cfg seen)
    (offset : Nat) (bytes : List Byte) (hlen : s.cfg.maxLen + 7 ≤ seen.length + bytes.length) :
    ∃ k outs u, seen.length + k ≤ s.cfg.maxLen + 7 ∧ runBytes offset (bytes.take k) s = .next (outs, u)
      ∧ u.framer = Framer.reset := by
  have hbound := h.length_le
  induction bytes generalizing s seen offset with
  | nil =>
    rw [List.length_nil] at hlen
    omega
  | cons b bytes ih =>
    rw [List.length_cons] at hlen
    obtain ⟨t, hstep, hout⟩ := h.exists_presentByte b hcfg
    cases hout with
    | @goesOn f hread =>
      have hseen : (seen ++ [b]).length = seen.length + 1 := List.length_append
      have hleft : s.cfg.maxLen + 7 ≤ (seen ++ [b]).length + bytes.length := by omega
      obtain ⟨k, outs, u, hk, hrun, hu⟩ := ih (s := s.withFramer f) hcfg hread (offset + 1) hleft hread.length_le
      rw [State.withFramer_cfg] at hk
      exact ⟨k + 1, outs, u, by omega, runBytes_cons_silent hstep rfl hrun, hu⟩
    | skipped hnil =>
      subst hnil
      exact ⟨0, [], s, by simp, rfl, h.eq_reset_of_nil⟩
    | dropped | accepted => exact ⟨1, _, _, by omega, runBytes_cons hstep rfl, rfl⟩

/-- Settles O49: a framer that has read nothing is in the reset state already, and any other has read one byte at least. -/
theorem everyAttemptEndsInTime : Obligations.EveryAttemptEndsInTime := by
  intro s bytes hs hbytes
  obtain ⟨hcfg, seen, hread⟩ := State.inv_iff_hasRead.mp hs
  cases seen with
  | nil => exact ⟨0, [], s, Nat.zero_le _, rfl, hread.eq_reset_of_nil⟩
  | cons b seen =>
    obtain ⟨k, outs, u, hk, hrun, hu⟩ := hread.exists_reset hcfg 0 bytes (by rw [List.length_cons]; omega)
    exact ⟨k, outs, u, by rw [List.length_cons] at hk; omega, hrun, hu⟩

end Sys2Proof.Machine
end

section
/-! The statements about runs over byte streams: runs in a row, gaps, the header phase, streams of frames, and what an accepted
packet proves of the stream (spec/43_frame_reference.md, spec/60_exceptions.md). -/

namespace Sys2Proof.Machine

/-- Settles O43, by the run over two streams in a row. -/
theorem runsCompose : Obligations.RunsCompose := fun _ _ _ _ _ _ _ _ hxs hys => runBytes_append hxs hys

/-! ### Gaps -/

theorem runBytes_gap {s : State} (offset : Nat) {gap : List Byte} (hs : s.framer.position = .waitSync)
    (hgap : (0xFA#8 : Byte) ∉ gap) : runBytes offset gap s = .next ([], s) := by
  induction gap generalizing offset with
  | nil => rfl
  | cons b gap ih =>
    obtain ⟨hb, hrest⟩ := not_or.mp (mt List.mem_cons.mpr hgap)
    exact runBytes_cons_silent ((presentByte_waitSync hs).trans (if_neg (Ne.symm hb))) rfl (ih (offset + 1) hrest)

/-- Settles O44, by induction over the gap. -/
theorem gapsAreIgnored : Obligations.GapsAreIgnored := fun k _ _ hs hgap => runBytes_gap k hs hgap

/-! ### The header phase -/

/-- Settles O45: the framer in the middle of a frame, before its first payload byte, has nothing but its header. -/
theorem headerPhaseReachesThePayload : Obligations.HeaderPhaseReachesThePayload := fun _ _ hs hn =>
  runBytes_headerBytes 0 hs hn

/-! ### A stream of frames -/

/-- An output of a machine whose framer is in the reset state leaves it there. -/
theorem State.emit_withFramer_reset {s : State} (o : Output) (hs : s.framer = Framer.reset) :
    (s.emit o).withFramer Framer.reset = s.emit o := by
  rw [← hs]
  rfl

/-- Each frame of a stream gives its packet, and the gap after it nothing (R121). -/
theorem runBytes_frames (frames : List (List Byte × List Byte)) {s : State} (offset : Nat) (hcfg : s.cfg.ok)
    (hs : s.framer = Framer.reset)
    (hframes : ∀ pg ∈ frames, pg.1.length ≤ s.cfg.maxLen ∧ (0xFA#8 : Byte) ∉ pg.2) :
    ∃ outs, runBytes offset (frames.flatMap fun pg => frameEncode pg.1 ++ pg.2) s =
        .next (outs, { s with output := s.output ++ frames.map fun pg => Output.packet (packetFor pg.1) })
      ∧ outs.map Prod.snd = frames.map fun pg => Output.packet (packetFor pg.1) := by
  induction frames generalizing s offset with
  | nil => exact ⟨[], by simp [runBytes], rfl⟩
  | cons pg frames ih =>
    obtain ⟨⟨hpayload, hgap⟩, hrest⟩ := List.forall_mem_cons.mp hframes
    have hframe := runBytes_frameEncode offset hcfg hs hpayload
    rw [State.emit_withFramer_reset _ hs] at hframe
    have hskip := runBytes_gap (s := s.emit (.packet (packetFor pg.1))) (offset + (frameEncode pg.1).length)
      (congrArg Framer.position hs) hgap
    obtain ⟨outs, hrun, houts⟩ := ih (s := s.emit (.packet (packetFor pg.1)))
      (offset + (frameEncode pg.1 ++ pg.2).length) hcfg hs hrest
    refine ⟨(offset + (pg.1.length + 6), .packet (packetFor pg.1)) :: outs, ?_, by rw [List.map_cons, houts]; rfl⟩
    have hall := runBytes_append (runBytes_append hframe hskip) hrun
    rw [State.emit_output, List.append_assoc s.output] at hall
    exact hall

/-- Settles O47: the first gap is skipped, and the frames follow. -/
theorem streamOfFramesGivesItsPackets : Obligations.StreamOfFramesGivesItsPackets := by
  intro s gap frames hcfg hs hgap hframes
  have hfirst := runBytes_gap 0 (congrArg Framer.position hs) hgap
  obtain ⟨outs, hrun, houts⟩ := runBytes_frames frames (0 + gap.length) hcfg hs hframes
  exact ⟨outs, runBytes_append hfirst hrun, houts⟩

/-! ### Only frames are accepted -/

theorem frameEncode_length (p : List Byte) : (frameEncode p).length = p.length + 7 := by
  simp [frameEncode, headerBytes]

theorem newOutputs_emit_withFramer (offset : Nat) (s : State) (o : Output) (f : Framer) :
    newOutputs offset s ((s.emit o).withFramer f) = [(offset, o)] := by
  simp [newOutputs]

/-- `p` is the packet of a frame within the bound that stands in `bytes`, whose first byte has offset `start`, and the last
byte of the frame has offset `k`. -/
def FrameEndsAt (cfg : Config) (start : Nat) (bytes : List Byte) (k : Nat) (p : Packet) : Prop :=
  ∃ q before after, p = packetFor q ∧ q.length ≤ cfg.maxLen ∧ bytes = before ++ frameEncode q ++ after
    ∧ k = start + before.length + q.length + 6

theorem FrameEndsAt.prepend {cfg : Config} {start k : Nat} {ys : List Byte} {p : Packet} (xs : List Byte)
    (h : FrameEndsAt cfg (start + xs.length) ys k p) : FrameEndsAt cfg start (xs ++ ys) k p := by
  obtain ⟨q, before, after, hp, hq, hframe, hk⟩ := h
  refine ⟨q, xs ++ before, after, hp, hq, by simp only [hframe, List.append_assoc], ?_⟩
  rw [List.length_append]
  omega

theorem FrameEndsAt.of_frameEncode {cfg : Config} {q seen : List Byte} {b : Byte} (hq : q.length ≤ cfg.maxLen)
    (h : seen ++ [b] = frameEncode q) (start : Nat) (bytes : List Byte) :
    FrameEndsAt cfg start (seen ++ b :: bytes) (start + seen.length) (packetFor q) := by
  have hlen := congrArg List.length h
  rw [frameEncode_length, List.length_append, List.length_singleton] at hlen
  exact ⟨q, [], bytes, rfl, hq, by rw [← h]; simp, by rw [List.length_nil]; omega⟩

/-- A packet in a run from a framer that has read `seen` is that of a whole frame in the bytes `seen` and those of the run:
the frame in progress ends with the next byte, goes on, or gives way to one that starts later. -/
theorem Framer.HasRead.frameEndsAt_of_packet {s u : State} {seen : List Byte} (hcfg : s.cfg.ok)
    (h : s.framer.HasRead s.cfg seen) {start : Nat} {bytes : List Byte} {outs : List (Nat × Output)} {k : Nat} {p : Packet}
    (hrun : runBytes (start + seen.length) bytes s = .next (outs, u)) (hmem : (k, .packet p) ∈ outs) :
    FrameEndsAt s.cfg start (seen ++ bytes) k p := by
  induction bytes generalizing s seen start outs with
  | nil =>
    cases hrun
    cases hmem
  | cons b bytes ih =>
    obtain ⟨t, outs', hstep, hrest, rfl⟩ := runBytes_cons_eq_next.mp hrun
    obtain ⟨t', hstep', hout⟩ := h.exists_presentByte b hcfg
    obtain rfl : t' = t := Host.Outcome.next.inj (hstep'.symm.trans hstep)
    have hlen : (seen ++ [b]).length = seen.length + 1 := List.length_append
    have hsplit : seen ++ b :: bytes = (seen ++ [b]) ++ bytes := List.append_cons seen b bytes
    rw [Nat.add_assoc, ← hlen] at hrest
    have hlater (ht : t'.cfg = s.cfg) (hread : t'.framer.HasRead t'.cfg []) (hmem : (k, .packet p) ∈ outs') :
        FrameEndsAt s.cfg start (seen ++ b :: bytes) k p :=
      hsplit ▸ (ht ▸ ih (ht ▸ hcfg) hread hrest hmem :).prepend (seen ++ [b])
    cases hout with
    | @goesOn f hread =>
      rw [newOutputs_of_output_eq (State.withFramer_output s f)] at hmem
      rw [hsplit]
      exact ih (s := s.withFramer f) hcfg hread hrest hmem
    | skipped hnil =>
      rw [newOutputs_of_output_eq (s := s) rfl] at hmem
      exact hlater rfl (hnil ▸ h) hmem
    | dropped c =>
      rw [raiseDrop, newOutputs_emit_withFramer] at hmem
      exact hlater rfl .nothing (by simpa using hmem)
    | accepted q hq hframe =>
      rw [newOutputs_emit_withFramer] at hmem
      obtain hfirst | hmem := List.mem_cons.mp hmem
      · cases hfirst
        exact .of_frameEncode hq hframe start bytes
      · exact hlater rfl .nothing hmem

/-- Settles O48: from the reset state nothing has been read. -/
theorem onlyWellFormedFramesAreAccepted : Obligations.OnlyWellFormedFramesAreAccepted := by
  intro s u bytes outs k p hcfg hs hrun hmem
  have hread : s.framer.HasRead s.cfg [] := hs ▸ .nothing
  obtain ⟨q, before, after, rfl, hq, hframe, hk⟩ := hread.frameEndsAt_of_packet (start := 0) hcfg hrun hmem
  rw [Nat.zero_add] at hk
  exact ⟨before, after, hframe, hq, hk, rfl⟩

end Sys2Proof.Machine
end

section
/-! The statements about frames as byte lists: no frame begins another, and the predicate form of a frame
(spec/43_frame_reference.md). -/

namespace Sys2Proof.Machine

/-! ### The length field tells frames apart -/

theorem headerBytes_length (n : Half) : (headerBytes n).length = 5 := rfl

/-- The length bytes of a header give the length back. -/
theorem headerBytes_injective : Function.Injective headerBytes := fun m n h => by
  obtain ⟨-, hlow, hhigh, -⟩ : syncByte = syncByte ∧ lowByte m = lowByte n ∧ highByte m = highByte n ∧ _ := by
    simpa only [headerBytes, List.cons.injEq] using h
  rw [← assembleLength_highByte_lowByte m, ← assembleLength_highByte_lowByte n, hlow, hhigh]

/-- Settles O57: frames that agree in the header have payloads of one length, so the one that begins the other is all of it. -/
theorem noFrameIsAPrefixOfAnother : Obligations.NoFrameIsAPrefixOfAnother := by
  intro p q hp hq hprefix
  have hheader : headerBytes (BitVec.ofNat 16 p.length) = headerBytes (BitVec.ofNat 16 q.length) := by
    have htake := List.prefix_iff_eq_take.mp hprefix
    have := congrArg (List.take 5) htake
    simpa [List.take_take, frameEncode, headerBytes] using this
  have hlen : p.length = q.length := by
    have := congrArg BitVec.toNat (headerBytes_injective hheader)
    simp only [BitVec.toNat_ofNat] at this
    omega
  have hframe : frameEncode p = frameEncode q := hprefix.eq_of_length (by simp only [frameEncode_length, hlen])
  simp only [frameEncode, hheader, List.append_assoc, List.append_right_inj] at hframe
  exact (List.append_inj hframe hlen).1

/-! ### The predicate form -/

/-- A frame has five header bytes at least. -/
theorem exists_cons_of_wellFormedFrame {cfg : Config} {f : List Byte} (h : wellFormedFrame cfg f = true) :
    ∃ f0 f1 f2 f3 f4 rest, f = f0 :: f1 :: f2 :: f3 :: f4 :: rest := by
  unfold wellFormedFrame at h
  split at h
  next f0 f1 f2 f3 f4 rest => exact ⟨f0, f1, f2, f3, f4, rest, rfl⟩
  next => cases h

/-- The clauses of R122, those about the bytes after the header together. -/
theorem wellFormedFrame_cons_iff {cfg : Config} {f0 f1 f2 f3 f4 : Byte} {rest : List Byte} {n : Half}
    (hn : assembleLength f2 (lengthFromLow f1) = n) :
    wellFormedFrame cfg (f0 :: f1 :: f2 :: f3 :: f4 :: rest) = true ↔
      n.toNat ≤ cfg.maxLen ∧ f0 = syncByte ∧ f3 = crc8 [f0, f1, f2] ∧ f4 = dsyncByte
        ∧ rest.length = n.toNat + 2 ∧ rest[n.toNat]? = some (crc8 (rest.take n.toNat))
        ∧ rest[n.toNat + 1]? = some stopByte := by
  have hlength : (f0 :: f1 :: f2 :: f3 :: f4 :: rest).length = n.toNat + overhead ↔ rest.length = n.toNat + 2 := by
    simp only [List.length_cons, overhead]
    omega
  simp only [wellFormedFrame, hn, hlength, Bool.and_eq_true, beq_iff_eq, decide_eq_true_eq]
  tauto

/-- The bytes after the header are a payload, its checksum and the stop byte. -/
theorem footer_iff {rest : List Byte} {k : Nat} :
    rest.length = k + 2 ∧ rest[k]? = some (crc8 (rest.take k)) ∧ rest[k + 1]? = some stopByte ↔
      ∃ p, p.length = k ∧ rest = p ++ [crc8 p, stopByte] := by
  constructor
  · rintro ⟨hlen, hcrc, hstop⟩
    obtain ⟨p, tail, hp, htail, rfl⟩ : ∃ p tail, p.length = k ∧ tail.length = 2 ∧ rest = p ++ tail :=
      ⟨rest.take k, rest.drop k, by rw [List.length_take]; omega, by rw [List.length_drop]; omega,
        (List.take_append_drop k rest).symm⟩
    obtain ⟨x, y, rfl⟩ := List.length_eq_two.mp htail
    subst hp
    obtain rfl : x = crc8 p := by simpa using hcrc
    obtain rfl : y = stopByte := by simpa using hstop
    exact ⟨p, rfl, rfl⟩
  · rintro ⟨p, rfl, rfl⟩
    simp

/-- Settles O58, in both directions through the clauses of R122. -/
theorem wellFormedFramesAreTheEncodedOnes : Obligations.WellFormedFramesAreTheEncodedOnes := by
  intro cfg f hcfg
  constructor
  · intro h
    obtain ⟨f0, f1, f2, f3, f4, rest, rfl⟩ := exists_cons_of_wellFormedFrame h
    obtain ⟨hbound, rfl, rfl, rfl, hfooter⟩ := (wellFormedFrame_cons_iff rfl).mp h
    obtain ⟨p, hp, rfl⟩ := footer_iff.mp hfooter
    refine ⟨p, hp.trans_le hbound, ?_⟩
    rw [frameEncode, ← eq_ofNat_of_toNat_eq hp.symm, headerBytes, headerCrcOf, lowByte_assembleLength,
      highByte_assembleLength, lowByte_lengthFromLow]
    rfl
  · rintro ⟨p, hp, rfl⟩
    have hn := toNat_ofNat_of_le_maxLen hcfg hp
    exact (wellFormedFrame_cons_iff (assembleLength_highByte_lowByte _)).mpr
      ⟨hn.trans_le hp, rfl, rfl, rfl, footer_iff.mpr ⟨p, hn.symm, rfl⟩⟩

end Sys2Proof.Machine
end

section
/-! The statements about a frame with one byte replaced: the offset at which it is dropped, and that it gives no packet
(spec/60_exceptions.md, R141). -/

namespace Sys2Proof.Machine

/-! ### Runs over the beginning of a frame -/

section
variable {s : State} {f : Framer} {seen : List Byte} {b : Byte} {c : DropCause}

theorem runBytes_concat_silent {t u : State} {xs : List Byte} (hxs : runBytes 0 xs s = .next ([], t))
    (hstep : presentByte b t = .next u) (hsilent : u.output = t.output) :
    runBytes 0 (xs ++ [b]) s = .next ([], u) :=
  runBytes_append hxs (runBytes_cons_silent hstep hsilent rfl)

/-- From the reset state the bytes `seen` lead, silently, to the framer that has read them. -/
theorem Framer.HasRead.runBytes_eq (hcfg : s.cfg.ok) (hs : s.framer = Framer.reset) (h : f.HasRead s.cfg seen) :
    runBytes 0 seen s = .next ([], s.withFramer f) := by
  have hsync : runBytes 0 [syncByte] s = .next ([], s.withFramer (Framer.reset.goto .getLengthLow)) :=
    runBytes_cons_silent ((presentByte_waitSync (congrArg Framer.position hs)).trans (if_pos rfl)) rfl rfl
  have hlow (lo : Byte) : runBytes 0 [syncByte, lo] s =
      .next ([], s.withFramer ((Framer.reset.withDeclaredLength (lengthFromLow lo)).goto .getLengthHigh)) :=
    runBytes_concat_silent hsync (presentByte_getLengthLow rfl) rfl
  have hlength (n : Half) (hn : n.toNat ≤ s.cfg.maxLen) : runBytes 0 [syncByte, lowByte n, highByte n] s =
      .next ([], s.withFramer ((Framer.reset.withDeclaredLength n).goto .getHeaderCrc)) := by
    have hfits := presentByte_getLengthHigh_of_fits (b := highByte n) (s := s.withFramer
      ((Framer.reset.withDeclaredLength (lengthFromLow (lowByte n))).goto .getLengthHigh)) rfl
    simp only [State.withFramer_framer, Framer.goto_declaredLength, Framer.withDeclaredLength_declaredLength,
      assembleLength_highByte_lowByte] at hfits
    exact runBytes_concat_silent (hlow (lowByte n)) (hfits hn) rfl
  have hpayload (n : Half) (q : List Byte) (hn : n.toNat ≤ s.cfg.maxLen) (hq : q.length ≤ n.toNat) :
      runBytes 0 (headerBytes n ++ q) s = .next ([], s.withFramer (Framer.midFrame n q)) :=
    runBytes_append (runBytes_headerBytes 0 hs hn)
      (runBytes_payload (q := []) _ q rfl (by simpa using hq) (hn.trans hcfg.1))
  cases h with
  | nothing => exact congrArg (fun f => Host.Outcome.next ([], s.withFramer f)) hs
  | sync => exact hsync
  | low lo => exact hlow lo
  | length n hn => exact hlength n hn
  | headerCrc n hn =>
    exact runBytes_concat_silent (hlength n hn) ((presentByte_getHeaderCrc rfl).trans (if_pos rfl)) rfl
  | payload n q hn hq => exact hpayload n q hn hq
  | footer q hq =>
    have hn := toNat_ofNat_of_le_maxLen hcfg hq
    have hpos : (Framer.midFrame (BitVec.ofNat 16 q.length) q).position = .getFooterCrc := if_pos rfl
    exact runBytes_concat_silent (hpayload _ q (hn.trans_le hq) hn.ge)
      ((presentByte_getFooterCrc hpos).trans (if_pos rfl)) rfl

/-- A byte that drops a frame in progress, after the bytes that led there. -/
theorem Framer.HasRead.runBytes_concat_drop (hcfg : s.cfg.ok) (hs : s.framer = Framer.reset) (h : f.HasRead s.cfg seen)
    (hb : presentByte b (s.withFramer f) = .next (raiseDrop c (s.withFramer f))) :
    runBytes 0 (seen ++ [b]) s = .next ([(seen.length, .drop c)], s.emit (.drop c)) := by
  have hdrop : raiseDrop c (s.withFramer f) = s.emit (.drop c) := State.emit_withFramer_reset (.drop c) hs
  have hlast := runBytes_cons (offset := 0 + seen.length) (rest := []) hb rfl
  rw [raiseDrop, newOutputs_emit_withFramer, ← raiseDrop, hdrop, List.append_nil, Nat.zero_add] at hlast
  exact runBytes_append (h.runBytes_eq hcfg hs) (by rwa [Nat.zero_add])

end

/-! ### The checksums over a replaced byte -/

theorem crc8_concat_self (q : List Byte) : crc8 (q ++ [crc8 q]) = 0 := by
  rw [crc8_concat, crcUpdate, BitVec.xor_self]
  rfl

theorem crc8_set_ne {xs : List Byte} {i : Nat} {v : Byte} (hi : i < xs.length) (hv : xs[i]? ≠ some v) :
    crc8 (xs.set i v) ≠ crc8 xs := by
  have hne : v ≠ xs[i] := fun h => hv (by rw [List.getElem?_eq_getElem hi, h])
  have hxs : xs.take i ++ xs[i] :: xs.drop (i + 1) = xs := by rw [← List.drop_eq_getElem_cons hi, List.take_append_drop]
  have := oneChangedByteChangesTheChecksum (xs.take i) (xs.drop (i + 1)) v xs[i] crcInit hne
  rwa [hxs, ← crc8, ← crc8, ← List.set_eq_take_cons_drop _ hi] at this

/-- A list that carries its own checksum at its end no longer does when one byte is replaced. -/
theorem ne_crc8_of_set {q q' : List Byte} {i : Nat} {v b : Byte} (hi : i < q.length + 1)
    (hv : (q ++ [crc8 q])[i]? ≠ some v) (hset : (q ++ [crc8 q]).set i v = q' ++ [b]) : b ≠ crc8 q' := by
  rintro rfl
  refine crc8_set_ne (by simpa using hi) hv ?_
  rw [hset, crc8_concat_self, crc8_concat_self]

/-! ### The replaced byte in each part of the frame -/

section
variable {s : State} {p : List Byte} {i : Nat} {v : Byte}

/-- In the first four bytes, whatever byte after the first is replaced, the fourth is not the checksum of the three before. -/
theorem frameEncode_set_header (hpos : 1 ≤ i) (hi : i ≤ 3) (hv : (frameEncode p)[i]? ≠ some v) :
    ∃ lo hi h tail, (frameEncode p).set i v = syncByte :: lo :: hi :: h :: tail ∧ h ≠ crc8 [syncByte, lo, hi]
      ∧ (i = 3 → assembleLength hi (lengthFromLow lo) = BitVec.ofNat 16 p.length) := by
  have hne {q' : List Byte} {h : Byte} := ne_crc8_of_set (q := [syncByte, lowByte (BitVec.ofNat 16 p.length),
    highByte (BitVec.ofNat 16 p.length)]) (q' := q') (b := h) (v := v) (i := i)
  interval_cases i
  · exact ⟨_, _, _, _, rfl, hne (by simp) hv rfl, by simp⟩
  · exact ⟨_, _, _, _, rfl, hne (by simp) hv rfl, by simp⟩
  · exact ⟨_, _, _, _, rfl, hne (by simp) hv rfl, fun _ => assembleLength_highByte_lowByte _⟩

theorem frameEncode_eq_append (p : List Byte) :
    frameEncode p = headerBytes (BitVec.ofNat 16 p.length) ++ ((p ++ [crc8 p]) ++ [stopByte]) := by
  simp only [frameEncode, List.append_assoc, List.cons_append, List.nil_append]

/-- From the payload on to its checksum, the byte at the checksum's place is not the checksum of those before it. -/
theorem frameEncode_set_payload (hpos : 5 ≤ i) (hi : i ≤ p.length + 5) (hv : (frameEncode p)[i]? ≠ some v) :
    ∃ q b, (frameEncode p).set i v = headerBytes (BitVec.ofNat 16 p.length) ++ q ++ [b] ++ [stopByte]
      ∧ q.length = p.length ∧ b ≠ crc8 q := by
  have hindex : i - 5 < (p ++ [crc8 p]).length := by
    rw [List.length_append, List.length_singleton]
    omega
  rw [frameEncode_eq_append, List.getElem?_append_right hpos, headerBytes_length, List.getElem?_append_left hindex] at hv
  obtain hnil | ⟨q, b, hqb⟩ := List.eq_nil_or_concat ((p ++ [crc8 p]).set (i - 5) v)
  · simp at hnil
  rw [List.concat_eq_append] at hqb
  refine ⟨q, b, ?_, ?_, ne_crc8_of_set (by simpa using hindex) hv hqb⟩
  · rw [frameEncode_eq_append, List.set_append_right _ _ (by exact hpos), headerBytes_length,
      List.set_append_left _ _ hindex, hqb]
    simp only [List.append_assoc]
  · simpa using (congrArg List.length hqb).symm

theorem frameEncode_eq_concat (p : List Byte) :
    frameEncode p = (headerBytes (BitVec.ofNat 16 p.length) ++ p ++ [crc8 p]) ++ [stopByte] := by
  simp only [frameEncode, List.append_assoc, List.cons_append, List.nil_append]

theorem length_before_stop (p : List Byte) :
    (headerBytes (BitVec.ofNat 16 p.length) ++ p ++ [crc8 p]).length = p.length + 6 := by
  simp [headerBytes]

theorem frameEncode_getElem?_stop (p : List Byte) : (frameEncode p)[p.length + 6]? = some stopByte := by
  rw [frameEncode_eq_concat, ← length_before_stop, List.getElem?_concat_length]

theorem frameEncode_set_stop :
    (frameEncode p).set (p.length + 6) v = (headerBytes (BitVec.ofNat 16 p.length) ++ p ++ [crc8 p]) ++ [v] := by
  rw [frameEncode_eq_concat, ← length_before_stop, List.set_append_right _ v le_rfl, Nat.sub_self]
  rfl

end

/-! ### The drop -/

theorem headerCrcOf_assembleLength (lo hi : Byte) :
    headerCrcOf (assembleLength hi (lengthFromLow lo)) = crc8 [syncByte, lo, hi] := by
  rw [headerCrcOf, lowByte_assembleLength, lowByte_lengthFromLow, highByte_assembleLength]

section
variable {s : State} (hcfg : s.cfg.ok) (hs : s.framer = Framer.reset)
include hcfg hs

/-- A header that declares too much is dropped at its third byte. -/
theorem runBytes_drop_frameTooLarge {lo hi : Byte} (hbound : s.cfg.maxLen < (assembleLength hi (lengthFromLow lo)).toNat) :
    runBytes 0 [syncByte, lo, hi] s = .next ([(2, .drop .frameTooLarge)], s.emit (.drop .frameTooLarge)) :=
  (Framer.HasRead.low lo).runBytes_concat_drop hcfg hs ((presentByte_getLengthHigh rfl).trans (if_neg hbound.not_ge))

/-- A header with a wrong checksum is dropped at its fourth byte. -/
theorem runBytes_drop_headerCrcMismatch {lo hi h : Byte}
    (hbound : (assembleLength hi (lengthFromLow lo)).toNat ≤ s.cfg.maxLen) (hne : h ≠ crc8 [syncByte, lo, hi]) :
    runBytes 0 [syncByte, lo, hi, h] s = .next ([(3, .drop .headerCrcMismatch)], s.emit (.drop .headerCrcMismatch)) := by
  have hread := Framer.HasRead.length _ hbound
  have hfails := (presentByte_getHeaderCrc (b := h) (s := s.withFramer ((Framer.reset.withDeclaredLength
    (assembleLength hi (lengthFromLow lo))).goto .getHeaderCrc)) rfl).trans
    (if_neg (headerCrcOf_assembleLength lo hi ▸ hne))
  rw [lowByte_assembleLength, lowByte_lengthFromLow, highByte_assembleLength] at hread
  exact hread.runBytes_concat_drop hcfg hs hfails

end

/-- Settles O50: up to the replaced byte the framer reads on as in a frame, and the first check that the byte fails, its own or
that of the checksum over it, drops the frame. -/
theorem substitutedByteIsCaught : Obligations.SubstitutedByteIsCaught := by
  intro s p i v f hcfg hs hp hf hi hv
  subst hf
  have hn := toNat_ofNat_of_le_maxLen hcfg hp
  refine ⟨fun l hi12 hl => ?_, fun hi3 => ?_, fun hi4 => ?_, fun hpos hto => ?_, fun hlast => ?_⟩
  · obtain ⟨lo, hi, h, tail, hf, hne, -⟩ := frameEncode_set_header (i := i) (by omega) (by omega) hv
    rw [hf] at hl ⊢
    have hlen : l = (assembleLength hi (lengthFromLow lo)).toNat := hl.trans (assembleLength_lengthFromLow_toNat lo hi).symm
    exact ⟨fun hlong => runBytes_drop_frameTooLarge hcfg hs (hlen ▸ hlong),
      fun hfits => runBytes_drop_headerCrcMismatch hcfg hs (hlen ▸ hfits) hne⟩
  · obtain ⟨lo, hi, h, tail, hf, hne, hlen⟩ := frameEncode_set_header (i := i) (by omega) (by omega) hv
    rw [hf]
    exact runBytes_drop_headerCrcMismatch hcfg hs (by rw [hlen hi3, hn]; exact hp) hne
  · subst hi4
    have hne : v ≠ dsyncByte := fun h => hv (h ▸ rfl)
    exact (Framer.HasRead.headerCrc _ (hn.trans_le hp)).runBytes_concat_drop hcfg hs
      ((presentByte_waitDataSync rfl).trans (if_neg hne))
  · obtain ⟨q, b, hf, hq, hne⟩ := frameEncode_set_payload hpos hto hv
    have hlen : (headerBytes (BitVec.ofNat 16 p.length) ++ q).length = p.length + 5 := by
      rw [List.length_append, headerBytes_length, hq, Nat.add_comm]
    have htake : ((frameEncode p).set i v).take (p.length + 6) = headerBytes (BitVec.ofNat 16 p.length) ++ q ++ [b] := by
      rw [hf]
      exact List.take_left' (by rw [List.length_append, hlen]; rfl)
    have hq' := hq.trans hn.symm
    rw [htake, ← hlen]
    exact (Framer.HasRead.payload _ q (hn.trans_le hp) hq'.le).runBytes_concat_drop hcfg hs
      ((presentByte_getFooterCrc (Framer.midFrame_position_getFooterCrc hq')).trans (if_neg hne))
  · subst hlast
    have hne : v ≠ stopByte := fun h => hv (by rw [h]; exact frameEncode_getElem?_stop p)
    rw [frameEncode_set_stop, ← length_before_stop]
    exact (Framer.HasRead.footer p hp).runBytes_concat_drop hcfg hs ((presentByte_getStopByte rfl).trans (if_neg hne))

/-! ### No packet -/

/-- Whatever byte after the first is replaced, the frame is dropped at that byte or after it, with nothing put out before. -/
theorem exists_drop_of_set {s : State} {p : List Byte} {i : Nat} {v : Byte} (hcfg : s.cfg.ok) (hs : s.framer = Framer.reset)
    (hp : p.length ≤ s.cfg.maxLen) (hpos : 1 ≤ i) (hi : i < p.length + 7) (hv : (frameEncode p)[i]? ≠ some v) :
    ∃ m c, i ≤ m ∧ runBytes 0 (((frameEncode p).set i v).take (m + 1)) s = .next ([(m, .drop c)], s.emit (.drop c)) := by
  obtain ⟨hlength, hheader, hsync, hpayload, hstop⟩ := substitutedByteIsCaught s p i v _ hcfg hs hp rfl hi hv
  obtain hi12 | rfl | rfl | ⟨hfrom, hto⟩ | rfl :
      (i = 1 ∨ i = 2) ∨ i = 3 ∨ i = 4 ∨ (5 ≤ i ∧ i ≤ p.length + 5) ∨ i = p.length + 6 := by omega
  · obtain ⟨hlong, hfits⟩ := hlength _ hi12 rfl
    obtain h | h := Nat.lt_or_ge s.cfg.maxLen _
    · exact ⟨2, _, by omega, hlong h⟩
    · exact ⟨3, _, by omega, hfits h⟩
  · exact ⟨3, _, le_rfl, hheader rfl⟩
  · exact ⟨4, _, le_rfl, hsync rfl⟩
  · exact ⟨p.length + 5, _, hto, hpayload hfrom hto⟩
  · have hwhole : ((frameEncode p).set (p.length + 6) v).length ≤ p.length + 6 + 1 := by
      rw [List.length_set, frameEncode_length]
    exact ⟨p.length + 6, _, le_rfl, (List.take_of_length_le hwhole).symm ▸ hstop rfl⟩

/-- Settles O51: with its first byte replaced the frame is a gap; otherwise it is dropped, and what is left of it is a gap. -/
theorem substitutedFrameGivesNoPacket : Obligations.SubstitutedFrameGivesNoPacket := by
  intro s p i v hcfg hs hp hi hv hgap
  obtain rfl | hpos := Nat.eq_zero_or_pos i
  · have hne : v ≠ 0xFA#8 := fun h => hv (h ▸ rfl)
    have hskip : (0xFA#8 : Byte) ∉ (frameEncode p).set 0 v := by
      change _ ∉ v :: (frameEncode p).drop 1
      exact List.not_mem_cons_of_ne_of_not_mem hne.symm hgap
    exact ⟨[], s, runBytes_gap 0 (congrArg Framer.position hs) hskip, rfl, hs⟩
  · obtain ⟨m, c, him, hdrop⟩ := exists_drop_of_set hcfg hs hp hpos hi hv
    have hrest : ((frameEncode p).set i v).drop (m + 1) = (frameEncode p).drop (m + 1) := List.drop_set_of_lt (by omega)
    have hskip : (0xFA#8 : Byte) ∉ (frameEncode p).drop (m + 1) := fun h =>
      hgap (List.drop_subset_drop_left _ (by omega) h)
    have hgaprun := runBytes_gap (s := s.emit (.drop c)) (0 + (((frameEncode p).set i v).take (m + 1)).length)
      (congrArg Framer.position hs) hskip
    have hall := runBytes_append hdrop hgaprun
    rw [← hrest, List.take_append_drop] at hall
    exact ⟨_, _, hall, rfl, hs⟩

end Sys2Proof.Machine
end
